-- ==== Sys2Proof/Word.lean ====
section
/-! DEFINITION. The word type, register numbers and the two conversions between words and integers
of spec/00_scope.md rules R9 and R10. -/

namespace Sys2Proof

/-- One word: `XLEN` = 32 bits, read as a two's-complement number by `BitVec.toInt` (R10). -/
abbrev Word := BitVec 32

/-- The number of a general register, 0 to 15 (R20, R21). -/
abbrev Reg := Fin 16

/-- `wrap32`: the word congruent to an integer modulo 2^32 (R10). -/
def wrap32 (v : Int) : Word := BitVec.ofInt 32 v

end Sys2Proof
end

