-- ==== Sys2Proof/Config.lean ====
section
/-! DEFINITION. What an implementation fixes (spec/00_scope.md rule R6) and the model's free values. -/

namespace Sys2Proof

/-- The parameters of R6 that the spec leaves to the platform, fixed for a run. -/
structure Params where
  /-- `PC_BASE`: the address of image entry 0 and the pc at reset. -/
  pcBase : Word
  /-- `DATA_MEM_WORDS`: the number of words in data memory. -/
  dataMemWords : Nat
  /-- `HALT_FLAG_STICKY`: the halt-fetched flag survives the squash of the HALT that set it. -/
  haltFlagSticky : Bool
  deriving DecidableEq, Repr

/-- The defaults of R6. -/
def Params.default : Params := ⟨4000, 4096, false⟩

/-- `INSTR_WIDTH`: what the pc advances by at a fetch (R6). -/
def Config.instrWidth : Nat := 4

/-- `POSTINC`: what LDI and STI add to their base register (R6, R205). -/
def Config.postInc : Int := 4

/-- `IMM_BITS`: the width of the immediate field (R6). -/
def Config.immBits : Nat := 15

/-- What a word of data memory reads as when nothing has written it: `INIT_MEM`, default 0
(10_state.md R45). -/
def Config.unlistedWord : Word := 0

/-- FREE VALUE (log 3): what a stage-computed latch field reads as before the stage that computes it
has run, by the number of the field. R31: it has no meaning then and no rule reads it. -/
opaque Config.unwrittenField : Nat → Word

end Sys2Proof
end

