-- ==== Sys2Proof/Syntax.lean ====
section
/-! DEFINITION. The instruction record of spec/30_encoding.md rules R80 and R84: one constructor for
each row of spec/opcode_table.json, with the record fields that R84 gives it. The immediate is an
`i32` at the level of the record (R80, R83, decision D30). -/

namespace Sys2Proof

/-- The closed set of 22 instruction kinds (R84). Operands stand in the order rd, rs1, rs2, imm. -/
inductive Instr where
  | add (rd rs1 rs2 : Reg)
  | sub (rd rs1 rs2 : Reg)
  | mul (rd rs1 rs2 : Reg)
  | div (rd rs1 rs2 : Reg)
  | and (rd rs1 rs2 : Reg)
  | or (rd rs1 rs2 : Reg)
  | xor (rd rs1 rs2 : Reg)
  | addl (rd rs1 : Reg) (imm : Word)
  | subl (rd rs1 : Reg) (imm : Word)
  | load (rd rs1 : Reg) (imm : Word)
  | store (rs1 rs2 : Reg) (imm : Word)
  | ldi (rd rs1 : Reg) (imm : Word)
  | sti (rs1 rs2 : Reg) (imm : Word)
  | loadconst (rd : Reg) (imm : Word)
  | jump (rs1 : Reg) (imm : Word)
  | bz (imm : Word)
  | bnz (imm : Word)
  | bp (imm : Word)
  | bnp (imm : Word)
  | cmp (rs1 rs2 : Reg)
  | halt
  | nop
  deriving DecidableEq, Repr

end Sys2Proof
end

