-- ==== Sys2Proof/Machine/State.lean ====
section
/-! DEFINITION. The machine's state (spec/10_state.md), as plain data, its value at reset (R45), and
the reasons a step can stop. -/

namespace Sys2Proof.Machine

/-- The five stages, in the order a tick evaluates them (40_pipeline_engine.md R110). -/
inductive Stage where
  | writeback
  | memory
  | execute
  | decode
  | fetch
  deriving DecidableEq, Repr

/-- The fatal conditions (60_exceptions.md R250), each with the information R250 records. They are
kept in `State.status`: raising one ends its tick in a NEXT state whose status is `faulted` (R255). -/
inductive Fatal where
  /-- Code 0, by the loader: the index of the first malformed word (R251). Safe: the core never starts. -/
  | malformedImage (index : Nat)
  /-- Code 1, by LOAD, LDI, STORE, STI in Memory: the pc and the word index (R253). -/
  | memoryOutOfBounds (pc index : Word)
  /-- Code 2, by DIV in Execute: the pc (R254). -/
  | divideByZero (pc : Word)
  /-- Code 3, by DIV in Execute: the pc (R257). -/
  | divideOverflow (pc : Word)
  /-- Code 4, in Decode, for a latch whose fetch found no image entry: the pc (R252). -/
  | fetchOutOfImage (pc : Word)
  /-- Code 5, in Decode, for a destination already claimed: the pc and the register (R258). -/
  | invariantViolation (pc : Word) (r : Reg)
  deriving DecidableEq, Repr

/-- `status` (R41). -/
inductive Status where
  | running
  | halted
  | faulted (f : Fatal)
  deriving DecidableEq, Repr

/-- The reasons a step stops with a fault: no next state. -/
inductive Fault where
  /-- Raised by the engine, when the latch of Execute, Memory or Writeback is occupied and holds no
  instruction (its `nofetch` field is true, so its instruction fields are meaningless, R31). Decode
  raises before such a latch can leave `D` (R153), so no run reaches it. Safe: the machine stops where
  the spec gives no effect. -/
  | noInstruction (stage : Stage)
  deriving DecidableEq, Repr

/-- The reasons a step is refused: the spec gives it no meaning. -/
inductive Refusal where
  /-- Raised by an arm of `exec` for an instruction that has no meaning yet. Safe: the machine stops. -/
  | notModelled (mnemonic : String)
  /-- Raised by `step` when HALT has retired: "tick has no step" (R113). Safe: the machine stops. -/
  | tickAfterHalt
  /-- Raised by `step` after a fatal condition: "tick has no step" (R113, R255). Safe: the machine stops. -/
  | tickAfterFatal (f : Fatal)
  deriving DecidableEq, Repr

/-- A latch that is occupied (R31, `valid` true); an empty latch is `none` (R34). A stage-computed
field is `none` until the stage that computes it has run (R31; log 3). -/
structure Latch where
  /-- `pc`: the pc value the instruction was fetched from. -/
  pc : Word
  /-- `op`, `rd`, `rs1`, `rs2`, `imm`; `none` is the field `nofetch` set. -/
  instr : Option Instr
  /-- `rs1_val`, by Decode. -/
  rs1Val : Option Word := none
  /-- `rs2_val`, by Decode. -/
  rs2Val : Option Word := none
  /-- `result`, by Execute, and by Memory for loads. -/
  result : Option Word := none
  /-- `mem_addr`, by Execute. -/
  memAddr : Option Word := none
  /-- `bypass`, by Execute: the next-base value of LDI and STI. -/
  bypass : Option Word := none
  deriving DecidableEq, Repr

/-- Data memory (R42) as (word index, word) pairs: indices strictly rising, no entry equal to what an
unlisted word reads as. The smallest unit of access is the word (20_memory.md R63; log 4). -/
abbrev Memory := List (Nat × Word)

/-- All state of the machine (spec/10_state.md), the run's parameters and image (R6, R43), and the
model's own field `stage`. -/
structure State where
  /-- The platform's parameters (R6), fixed for a run. -/
  params : Params
  /-- The program image (R43), fixed for a run. -/
  image : List Instr
  /-- `x[0..15]` (R20). -/
  regs : Vector Word 16
  /-- `busy[0..15]` (R22). -/
  busy : Vector Bool 16
  /-- `pc` (R24). -/
  pc : Word
  /-- `Z` (R27). -/
  zFlag : Bool
  /-- `P` (R27). -/
  pFlag : Bool
  /-- Latch `F` (R33). -/
  latF : Option Latch
  /-- Latch `D` (R30). -/
  latD : Option Latch
  /-- Latch `E` (R30). -/
  latE : Option Latch
  /-- Latch `M` (R30). -/
  latM : Option Latch
  /-- Latch `W` (R30). -/
  latW : Option Latch
  /-- The Execute forwarding tap (R35). -/
  tapE : Option (Reg × Word)
  /-- The Memory forwarding tap (R35). -/
  tapM : Option (Reg × Word)
  /-- `fetch_suppress` (R37). -/
  fetchSuppress : Bool
  /-- `halt_fetched` (R38). -/
  haltFetched : Bool
  /-- `cycles` (R39). -/
  cycles : Nat
  /-- `retired` (R40). -/
  retired : Nat
  /-- `status` (R41). -/
  status : Status
  /-- Data memory (R42). -/
  mem : Memory
  /-- `halted_now` inside a tick, and between ticks the `halted` answer of the last one (00_scope.md
  R7, 40_pipeline_engine.md R111, R112; log 13). -/
  haltedNow : Bool
  /-- The stage the engine is evaluating (R110, R12; the model's own field, log 1). -/
  stage : Stage
  deriving DecidableEq, Repr

/-- The state before the first tick (R45), for given parameters, image and initial contents
(`INIT_REGS`, `INIT_MEM`). -/
def State.initial (params : Params) (image : List Instr) (regs : Vector Word 16) (mem : Memory) :
    State :=
  { params := params, image := image, regs := regs, busy := Vector.replicate 16 false,
    pc := params.pcBase, zFlag := false, pFlag := false,
    latF := none, latD := none, latE := none, latM := none, latW := none,
    tapE := none, tapM := none, fetchSuppress := false, haltFetched := false,
    cycles := 0, retired := 0, status := .running, mem := mem,
    haltedNow := false, stage := .fetch }

/-- The machine right after reset (R45), every parameter at its default and no program loaded. -/
def State.reset : State :=
  State.initial Params.default [] (Vector.replicate 16 0) []

end Sys2Proof.Machine
end

