-- ==== Sys2Proof/Machine/Ops.lean ====
section
/-! DEFINITION. The shared operations: register file, busy bits, data memory, raising a fatal
condition, and the handoff each stage makes (spec/40_pipeline_engine.md, spec/20_memory.md,
spec/60_exceptions.md). There is no return from a fatal condition (R261) and so no operation for one. -/

namespace Sys2Proof.Machine

/-- What a step, a stage or a meaning answers. -/
abbrev Res := Host.Outcome State Fault Refusal

/-! ### Registers and busy bits -/

/-- `x[r]` (R11, R20): all sixteen are ordinary storage. -/
def State.reg (s : State) (r : Reg) : Word := s.regs[r]

/-- `x[r] <- v` (R11). -/
def State.setReg (s : State) (r : Reg) (v : Word) : State := { s with regs := s.regs.set r v }

/-- `busy[r]` (R22). -/
def State.isBusy (s : State) (r : Reg) : Bool := s.busy[r]

/-- `busy[r] <- b` (R22). -/
def State.setBusy (s : State) (r : Reg) (b : Bool) : State := { s with busy := s.busy.set r b }

/-! ### Stage-computed latch fields -/

/-- A stage-computed field: its value, or the free value when its stage has not run (R31; log 3).
The fields are numbered in the order of R31's table. -/
def Latch.field (f : Option Word) (n : Nat) : Word :=
  match f with
  | some v => v
  | none => Config.unwrittenField n

/-- `rs1_val`. -/
def Latch.rs1v (l : Latch) : Word := Latch.field l.rs1Val 0
/-- `rs2_val`. -/
def Latch.rs2v (l : Latch) : Word := Latch.field l.rs2Val 1
/-- `result`. -/
def Latch.res (l : Latch) : Word := Latch.field l.result 2
/-- `mem_addr`. -/
def Latch.addr (l : Latch) : Word := Latch.field l.memAddr 3
/-- `bypass`. -/
def Latch.nextBase (l : Latch) : Word := Latch.field l.bypass 4

/-! ### Fatal conditions -/

/-- `raise` (R11, R255): the status records the condition, and nothing after the raise is done. The
writes made earlier in the tick stay. -/
def raise (f : Fatal) (s : State) : Res := .next { s with status := .faulted f }

/-- The numeric code of a condition (R250). -/
def Fatal.code : Fatal → Nat
  | .malformedImage _ => 0
  | .memoryOutOfBounds _ _ => 1
  | .divideByZero _ => 2
  | .divideOverflow _ => 3
  | .fetchOutOfImage _ => 4
  | .invariantViolation _ _ => 5

/-! ### Data memory -/

/-- The word at an index (R42). -/
def Memory.read (m : Memory) (a : Nat) : Word :=
  match m with
  | [] => Config.unlistedWord
  | (k, v) :: m => if a = k then v else Memory.read m a

/-- The entry for `v` at `a`, where one is listed. -/
def Memory.entry (a : Nat) (v : Word) (m : Memory) : Memory :=
  if v = Config.unlistedWord then m else (a, v) :: m

/-- The memory with `v` at index `a`, in canonical form when `m` is. -/
def Memory.write (m : Memory) (a : Nat) (v : Word) : Memory :=
  match m with
  | [] => Memory.entry a v []
  | (k, u) :: m =>
    if a < k then Memory.entry a v ((k, u) :: m)
    else if a = k then Memory.entry a v m
    else (k, u) :: Memory.write m a v

/-- Every index from `lo` up, strictly rising, each below `size`, and no entry equal to what an
unlisted word reads as. -/
def Memory.wfFrom (lo size : Nat) (m : Memory) : Bool :=
  match m with
  | [] => true
  | (k, v) :: m =>
    decide (lo ≤ k) && decide (k < size) && decide (v ≠ Config.unlistedWord) &&
      Memory.wfFrom (k + 1) size m

/-- The canonical form of a data memory of `size` words. -/
def Memory.wf (size : Nat) (m : Memory) : Bool := Memory.wfFrom 0 size m

/-- `0 <= a and a < DATA_MEM_WORDS`, as signed numbers (20_memory.md R61, R75). -/
def State.inBounds (s : State) (a : Word) : Bool :=
  decide (0 ≤ a.toInt) && decide (a.toInt < (s.params.dataMemWords : Int))

/-- `mem[a]`, for an index in bounds. -/
def State.word (s : State) (a : Word) : Word := s.mem.read a.toNat

/-- `MemRead(a, 1)` (R75): the word, or `none` where it raises. -/
def State.memRead (s : State) (a : Word) : Option Word :=
  if s.inBounds a then some (s.word a) else none

/-- `MemWrite(a, 1, v)` (R75): the state with the word stored, or `none` where it raises. -/
def State.memWrite (s : State) (a v : Word) : Option State :=
  if s.inBounds a then some { s with mem := s.mem.write a.toNat v } else none

/-! ### The program image -/

/-- The pc is the address of an image entry (10_state.md R26). -/
def State.fetchable (s : State) (a : Word) : Bool :=
  let off := a.toInt - s.params.pcBase.toInt
  decide (0 ≤ off) && decide (off % Config.instrWidth = 0) &&
    decide (off / Config.instrWidth < s.image.length)

/-- The index of the entry at a fetchable address (20_memory.md R62). -/
def State.imageIndex (s : State) (a : Word) : Nat :=
  ((a.toInt - s.params.pcBase.toInt) / Config.instrWidth).toNat

/-- `Image(a)` (R62): the record at `a`, or `none` for `nofetch`. -/
def State.imageAt (s : State) (a : Word) : Option Instr :=
  if s.fetchable a then s.image[s.imageIndex a]? else none

/-! ### Fetch -/

/-- `pc` after a fetch: `wrap32(pc + INSTR_WIDTH)` (R25, R115). -/
def nextPc (pc : Word) : Word := wrap32 (pc.toInt + Config.instrWidth)

/-- The fetched latch enters `F` and `D`, and the pc advances (R115); `i` is `none` for `nofetch`
(R119). -/
def fill (i : Option Instr) (s : State) : State :=
  { s with
    latF := some { pc := s.pc, instr := i }
    latD := some { pc := s.pc, instr := i }
    pc := nextPc s.pc }

/-- The Fetch action of every kind but HALT. -/
def fetched (i : Instr) (s : State) : Res := .next (fill (some i) s)

/-- The Fetch action of HALT: `halt_fetched` is set too (R115, R118, R240). -/
def fetchedHalt (i : Instr) (s : State) : Res := .next { fill (some i) s with haltFetched := true }

/-! ### Execute, Memory and Writeback: what a stage does with its latch -/

/-- The action of a stage on its latch; an empty latch leaves the state as it is (R34, R114). -/
def onLatch (l : Option Latch) (s : State) (act : Latch → State → Res) : Res :=
  match l with
  | none => .next s
  | some l => act l s

/-- The end of Execute (R122): publish the tap, hand the latch to `M`, empty `E`. -/
def toMemory (l : Latch) (tap : Option (Reg × Word)) (s : State) : State :=
  { s with tapE := tap, latM := some l, latE := none }

/-- The end of Memory (R121): publish the tap, hand the latch to `W`, empty `M`. -/
def toWriteback (l : Latch) (tap : Option (Reg × Word)) (s : State) : State :=
  { s with tapM := tap, latW := some l, latM := none }

/-- Memory of a kind that has a result and no memory access: it passes through, and is the Memory tap
(R121, R149). -/
def passResult (rd : Reg) (l : Latch) (s : State) : Res := .next (toWriteback l (some (rd, l.res)) s)

/-- Memory of a kind with no result and no memory access: nothing is published (R121, R149). -/
def passNothing (l : Latch) (s : State) : Res := .next (toWriteback l none s)

/-- Memory of LOAD and LDI: the word read is the result and the Memory tap; out of bounds raises
before anything is done (R121, R149, R253). -/
def loadWord (rd : Reg) (l : Latch) (s : State) : Res :=
  match s.memRead l.addr with
  | some v => .next (toWriteback { l with result := some v } (some (rd, v)) s)
  | none => raise (.memoryOutOfBounds l.pc l.addr) s

/-- Memory of STORE and STI: the resolved `rs1` is stored, nothing is published; out of bounds raises
before anything is done (R121, R149, R253). -/
def storeWord (l : Latch) (s : State) : Res :=
  match s.memWrite l.addr l.rs1v with
  | some s' => .next (toWriteback l none s')
  | none => raise (.memoryOutOfBounds l.pc l.addr) s

/-- `x[r] <- v; busy[r] <- false` (R127). -/
def commit (r : Reg) (v : Word) (s : State) : State := (s.setReg r v).setBusy r false

/-- The end of Writeback (R127): the retire counter counts, and `W` is emptied. -/
def retire (s : State) : State := { s with retired := s.retired + 1, latW := none }

/-- Writeback of a kind that writes `rd` only. -/
def retireResult (rd : Reg) (l : Latch) (s : State) : Res := .next (retire (commit rd l.res s))

/-- Writeback of a kind that writes no register. -/
def retireNothing (s : State) : Res := .next (retire s)

/-! ### Control transfer -/

/-- `squash()` (44_control_transfer.md R222): the instruction in `D` is discarded; a discarded HALT
releases fetch again unless the flag is sticky (R223). -/
def squash (s : State) : State :=
  match s.latD with
  | none => s
  | some l =>
    { s with
      haltFetched := if l.instr = some .halt ∧ s.params.haltFlagSticky = false then false
                     else s.haltFetched
      latD := none }

/-- `taken(target)` (R221). -/
def taken (target : Word) (s : State) : State :=
  squash { s with pc := target, fetchSuppress := true }

end Sys2Proof.Machine
end

