-- ==== Sys2Proof/Machine/Flags.lean ====
section
/-! DEFINITION. The flag computations (spec/10_state.md R27, R28; spec/42_alu_and_compare.md R173,
R190). -/

namespace Sys2Proof.Machine

/-- The flags of an arithmetic result: zero iff it is 0, positive iff it is greater than 0, on the
wrapped signed value (R173). -/
def setResultFlags (v : Word) (s : State) : State :=
  { s with zFlag := decide (v.toInt = 0), pFlag := decide (v.toInt > 0) }

/-- The flags of CMP: equal, and greater as a true signed comparison (R190). -/
def setCompareFlags (a b : Word) (s : State) : State :=
  { s with zFlag := decide (a = b), pFlag := decide (a.toInt > b.toInt) }

end Sys2Proof.Machine
end

