-- ==== Sys2Proof/WellFormed.lean ====
section
/-! DEFINITION. Which instruction records have a word (spec/30_encoding.md rules R83, R89, R92): the
immediate fits the 15-bit field, and LDI's two destinations differ. -/

namespace Sys2Proof

/-- The immediate fits the signed 15-bit field: −16384 to 16383 (R83, R92). -/
def immFits (imm : Word) : Bool := decide (-16384 ≤ imm.toInt) && decide (imm.toInt ≤ 16383)

/-- A record some word decodes to: every immediate fits, and LDI has `rd ≠ rs1` (R89). All other
register coincidences are legal. -/
def Instr.wellFormed : Instr → Bool
  | .add _ _ _ => true
  | .sub _ _ _ => true
  | .mul _ _ _ => true
  | .div _ _ _ => true
  | .and _ _ _ => true
  | .or _ _ _ => true
  | .xor _ _ _ => true
  | .addl _ _ imm => immFits imm
  | .subl _ _ imm => immFits imm
  | .load _ _ imm => immFits imm
  | .store _ _ imm => immFits imm
  | .ldi rd rs1 imm => decide (rd ≠ rs1) && immFits imm
  | .sti _ _ imm => immFits imm
  | .loadconst _ imm => immFits imm
  | .jump _ imm => immFits imm
  | .bz imm => immFits imm
  | .bnz imm => immFits imm
  | .bp imm => immFits imm
  | .bnp imm => immFits imm
  | .cmp _ _ => true
  | .halt => true
  | .nop => true

/-- What the core's own rules need of a record, wide immediates included (R83, R89, R93): LDI has
`rd ≠ rs1`. -/
def Instr.legal : Instr → Bool
  | .ldi rd rs1 _ => decide (rd ≠ rs1)
  | _ => true

end Sys2Proof
end

