-- ==== Sys2Proof/Decode.lean ====
section
/-! DEFINITION. The instruction word (spec/30_encoding.md rules R81 to R92): the decoder, total on
words and rejecting by name, then the encoder written from the same tables. -/

namespace Sys2Proof

/-! ### Fields of a word (R81) -/

/-- The `n` bits of `w` from bit `lo` up, as an unsigned number (R9). -/
def bits (lo n : Nat) (w : Word) : Nat := w.toNat / 2 ^ lo % 2 ^ n

/-- `w[31:27]`. -/
def opcodeField (w : Word) : Nat := bits 27 5 w
/-- `w[26:23]`. -/
def rdField (w : Word) : Nat := bits 23 4 w
/-- `w[22:19]`. -/
def rs1Field (w : Word) : Nat := bits 19 4 w
/-- `w[18:15]`. -/
def rs2Field (w : Word) : Nat := bits 15 4 w
/-- `w[14:0]`. -/
def immField (w : Word) : Nat := bits 0 15 w

/-- The register a 4-bit field names. -/
def regOf (n : Nat) : Reg := Fin.ofNat 16 n

/-- `sext_15`: the word of the same value as a 15-bit two's-complement field (R10, R83). -/
def sext15 (n : Nat) : Word :=
  if n < 2 ^ 14 then wrap32 (n : Int) else wrap32 ((n : Int) - 2 ^ 15)

/-! ### The decoder (R86) -/

/-- Why a word is `malformed`. -/
inductive Malformed where
  /-- The opcode selects no instruction (R87). -/
  | reservedOpcode (opcode : Nat)
  /-- A field the format does not use is not zero (R88). -/
  | unusedField
  /-- LDI with `rd = rs1` (R89). -/
  | ldiBaseIsDestination
  deriving DecidableEq, Repr

/-- The verdict on a word: an instruction record or `malformed`, by name. -/
inductive Decoded where
  | ok (i : Instr)
  | malformed (why : Malformed)
  deriving DecidableEq, Repr

/-- The record if the word decodes. -/
def Decoded.toOption : Decoded → Option Instr
  | .ok i => some i
  | .malformed _ => none

/-- The record `i`, if the fields the format does not use are zero (R88). -/
def ifUnusedZero (unused : List Nat) (i : Instr) : Decoded :=
  if unused.all (· == 0) then .ok i else .malformed .unusedField

/-- Format R: `rd`, `rs1`, `rs2` (R82). -/
def formatR (mk : Reg → Reg → Reg → Instr) (w : Word) : Decoded :=
  ifUnusedZero [immField w] (mk (regOf (rdField w)) (regOf (rs1Field w)) (regOf (rs2Field w)))

/-- Format I: `rd`, `rs1`, `imm15` (R82). -/
def formatI (mk : Reg → Reg → Word → Instr) (w : Word) : Decoded :=
  ifUnusedZero [rs2Field w] (mk (regOf (rdField w)) (regOf (rs1Field w)) (sext15 (immField w)))

/-- Format S: `rs1`, `rs2`, `imm15` (R82). -/
def formatS (mk : Reg → Reg → Word → Instr) (w : Word) : Decoded :=
  ifUnusedZero [rdField w] (mk (regOf (rs1Field w)) (regOf (rs2Field w)) (sext15 (immField w)))

/-- Format C: `rd`, `imm15` (R82). -/
def formatC (mk : Reg → Word → Instr) (w : Word) : Decoded :=
  ifUnusedZero [rs1Field w, rs2Field w] (mk (regOf (rdField w)) (sext15 (immField w)))

/-- Format J: `rs1`, `imm15` (R82). -/
def formatJ (mk : Reg → Word → Instr) (w : Word) : Decoded :=
  ifUnusedZero [rdField w, rs2Field w] (mk (regOf (rs1Field w)) (sext15 (immField w)))

/-- Format B: `imm15` (R82). -/
def formatB (mk : Word → Instr) (w : Word) : Decoded :=
  ifUnusedZero [rdField w, rs1Field w, rs2Field w] (mk (sext15 (immField w)))

/-- Format K: `rs1`, `rs2` (R82). -/
def formatK (mk : Reg → Reg → Instr) (w : Word) : Decoded :=
  ifUnusedZero [rdField w, immField w] (mk (regOf (rs1Field w)) (regOf (rs2Field w)))

/-- Format N: no operand (R82). -/
def formatN (i : Instr) (w : Word) : Decoded :=
  ifUnusedZero [rdField w, rs1Field w, rs2Field w, immField w] i

/-- The decoder of R86, by the opcode numbers of R85. -/
def decode (w : Word) : Decoded :=
  match opcodeField w with
  | 1 => formatR .add w
  | 2 => formatR .sub w
  | 3 => formatR .mul w
  | 4 => formatR .div w
  | 5 => formatR .and w
  | 6 => formatR .or w
  | 7 => formatR .xor w
  | 8 => formatI .addl w
  | 9 => formatI .subl w
  | 10 => formatI .load w
  | 11 => formatS .store w
  | 12 => if rdField w = rs1Field w then .malformed .ldiBaseIsDestination else formatI .ldi w
  | 13 => formatS .sti w
  | 14 => formatC .loadconst w
  | 15 => formatJ .jump w
  | 16 => formatB .bz w
  | 17 => formatB .bnz w
  | 18 => formatB .bp w
  | 19 => formatB .bnp w
  | 20 => formatK .cmp w
  | 21 => formatN .halt w
  | 22 => formatN .nop w
  | n => .malformed (.reservedOpcode n)

/-- The instruction the decoder reads from the table word `w` of `nbits` bits (every bit above
`nbits` is 0). A word of more than 32 bits is no instruction word (R81, R90). -/
def decodeTableWord (nbits w : Nat) : Option Instr :=
  if w % 2 ^ nbits < 2 ^ 32 then (decode (BitVec.ofNat 32 (w % 2 ^ nbits))).toOption else none

/-! ### The encoder (R92) -/

/-- The word with these fields at their positions of R81. -/
def assemble (opcode rd rs1 rs2 imm : Nat) : Word :=
  BitVec.ofNat 32 (opcode * 2 ^ 27 + rd * 2 ^ 23 + rs1 * 2 ^ 19 + rs2 * 2 ^ 15 + imm)

/-- The immediate as `imm mod 2^15` (R92). -/
def immBits15 (imm : Word) : Nat := imm.toNat % 2 ^ 15

/-- The opcode number of each kind (R85). -/
def Instr.opcode : Instr → Nat
  | .add _ _ _ => 1
  | .sub _ _ _ => 2
  | .mul _ _ _ => 3
  | .div _ _ _ => 4
  | .and _ _ _ => 5
  | .or _ _ _ => 6
  | .xor _ _ _ => 7
  | .addl _ _ _ => 8
  | .subl _ _ _ => 9
  | .load _ _ _ => 10
  | .store _ _ _ => 11
  | .ldi _ _ _ => 12
  | .sti _ _ _ => 13
  | .loadconst _ _ => 14
  | .jump _ _ => 15
  | .bz _ => 16
  | .bnz _ => 17
  | .bp _ => 18
  | .bnp _ => 19
  | .cmp _ _ => 20
  | .halt => 21
  | .nop => 22

/-- The record's `rd`, where its kind has one (R84). -/
def Instr.rdOpt : Instr → Option Reg
  | .add rd _ _ | .sub rd _ _ | .mul rd _ _ | .div rd _ _ => some rd
  | .and rd _ _ | .or rd _ _ | .xor rd _ _ => some rd
  | .addl rd _ _ | .subl rd _ _ | .load rd _ _ | .ldi rd _ _ => some rd
  | .loadconst rd _ => some rd
  | .store _ _ _ | .sti _ _ _ | .jump _ _ | .bz _ | .bnz _ | .bp _ | .bnp _ => none
  | .cmp _ _ | .halt | .nop => none

/-- The record's `rs1`, where its kind has one (R84). -/
def Instr.rs1Opt : Instr → Option Reg
  | .add _ rs1 _ | .sub _ rs1 _ | .mul _ rs1 _ | .div _ rs1 _ => some rs1
  | .and _ rs1 _ | .or _ rs1 _ | .xor _ rs1 _ => some rs1
  | .addl _ rs1 _ | .subl _ rs1 _ | .load _ rs1 _ | .ldi _ rs1 _ => some rs1
  | .store rs1 _ _ | .sti rs1 _ _ | .jump rs1 _ | .cmp rs1 _ => some rs1
  | .loadconst _ _ | .bz _ | .bnz _ | .bp _ | .bnp _ | .halt | .nop => none

/-- The record's `rs2`, where its kind has one (R84). -/
def Instr.rs2Opt : Instr → Option Reg
  | .add _ _ rs2 | .sub _ _ rs2 | .mul _ _ rs2 | .div _ _ rs2 => some rs2
  | .and _ _ rs2 | .or _ _ rs2 | .xor _ _ rs2 => some rs2
  | .store _ rs2 _ | .sti _ rs2 _ | .cmp _ rs2 => some rs2
  | .addl _ _ _ | .subl _ _ _ | .load _ _ _ | .ldi _ _ _ | .loadconst _ _ => none
  | .jump _ _ | .bz _ | .bnz _ | .bp _ | .bnp _ | .halt | .nop => none

/-- The record's immediate, where its kind has one (R84). -/
def Instr.immOpt : Instr → Option Word
  | .addl _ _ imm | .subl _ _ imm | .load _ _ imm | .ldi _ _ imm => some imm
  | .store _ _ imm | .sti _ _ imm | .loadconst _ imm | .jump _ imm => some imm
  | .bz imm | .bnz imm | .bp imm | .bnp imm => some imm
  | .add _ _ _ | .sub _ _ _ | .mul _ _ _ | .div _ _ _ => none
  | .and _ _ _ | .or _ _ _ | .xor _ _ _ | .cmp _ _ | .halt | .nop => none

/-- A register field: the number, or zero where the format does not use it. -/
def regBits (r : Option Reg) : Nat :=
  match r with
  | some r => r.val
  | none => 0

/-- The word of a well-formed record: the opcode, each present field at its position, zero in every
unused field (R92). -/
def encode (i : Instr) : Word :=
  assemble i.opcode (regBits i.rdOpt) (regBits i.rs1Opt) (regBits i.rs2Opt)
    (match i.immOpt with | some imm => immBits15 imm | none => 0)

end Sys2Proof
end

