-- ==== Sys2Proof/Machine/Operands.lean ====
section
/-! DEFINITION. Operands: which registers each kind reads and writes, how Decode resolves a source and
claims its destinations (spec/41_decode_hazard_forwarding.md R140 to R147), and the addresses
Execute forms (R200, R205, R230). -/

namespace Sys2Proof.Machine

/-- `sources` (R141): the registers whose values Decode resolves. -/
def sources : Instr → List Reg
  | .add _ rs1 rs2 | .sub _ rs1 rs2 | .mul _ rs1 rs2 | .div _ rs1 rs2 => [rs1, rs2]
  | .and _ rs1 rs2 | .or _ rs1 rs2 | .xor _ rs1 rs2 => [rs1, rs2]
  | .addl _ rs1 _ | .subl _ rs1 _ | .load _ rs1 _ | .ldi _ rs1 _ | .jump rs1 _ => [rs1]
  | .store rs1 rs2 _ | .sti rs1 rs2 _ | .cmp rs1 rs2 => [rs1, rs2]
  | .loadconst _ _ | .bz _ | .bnz _ | .bp _ | .bnp _ | .halt | .nop => []

/-- `dests` (R141): the registers Decode marks busy and Writeback writes. -/
def dests : Instr → List Reg
  | .add rd _ _ | .sub rd _ _ | .mul rd _ _ | .div rd _ _ => [rd]
  | .and rd _ _ | .or rd _ _ | .xor rd _ _ => [rd]
  | .addl rd _ _ | .subl rd _ _ | .load rd _ _ | .loadconst rd _ => [rd]
  | .ldi rd rs1 _ => [rd, rs1]
  | .sti _ rs2 _ => [rs2]
  | .store _ _ _ | .jump _ _ | .bz _ | .bnz _ | .bp _ | .bnp _ => []
  | .cmp _ _ | .halt | .nop => []

/-! ### Resolving sources, claiming destinations -/

/-- A tap names `r` (R142). -/
def tapValue (tap : Option (Reg × Word)) (r : Reg) : Option Word :=
  match tap with
  | some (t, v) => if t = r then some v else none
  | none => none

/-- `resolve(r)` (R142): the Execute tap, the Memory tap, a stall (`none`) if the register is busy,
else the register file. -/
def resolve (r : Reg) (s : State) : Option Word :=
  match tapValue s.tapE r with
  | some v => some v
  | none =>
    match tapValue s.tapM r with
    | some v => some v
    | none => if s.isBusy r then none else some (s.reg r)

/-- A source that may be absent: `some none` where there is none, `none` for a stall. -/
def resolveOpt (r : Option Reg) (s : State) : Option (Option Word) :=
  match r with
  | none => some none
  | some r => (resolve r s).map some

/-- Mark each destination busy, in order, up to the first that is already busy (R140, R154): the state,
and that register if there is one. -/
def claim (ds : List Reg) (s : State) : State × Option Reg :=
  match ds with
  | [] => (s, none)
  | d :: ds => if s.isBusy d then (s, some d) else claim ds (s.setBusy d true)

/-- A successful decode (R140, R147): the resolved values are stored, the latch goes to `E`, and `D` is
emptied. -/
def toExecute (v1 v2 : Option Word) (l : Latch) (s : State) : State :=
  { s with latE := some { l with rs1Val := v1, rs2Val := v2 }, latD := none }

/-- The Decode action of every kind (R140), for the sources and destinations of its row of R141. A
stall leaves the state as it is (R143, R144, R146). -/
def issue (rs1 rs2 : Option Reg) (ds : List Reg) (l : Latch) (s : State) : Res :=
  match resolveOpt rs1 s, resolveOpt rs2 s with
  | some v1, some v2 =>
    if ds.any s.isBusy then .next s
    else
      match claim ds s with
      | (s', some d) => raise (.invariantViolation l.pc d) s'
      | (s', none) => .next (toExecute v1 v2 l s')
  | _, _ => .next s

/-! ### What Execute forms from the operands -/

/-- The effective word index: `wrap32(base + imm)` (R200). -/
def effAddr (base imm : Word) : Word := wrap32 (base.toInt + imm.toInt)

/-- The next base of LDI and STI: `wrap32(base + POSTINC)` (R205). -/
def postIncrement (base : Word) : Word := wrap32 (base.toInt + Config.postInc)

/-- The target of a conditional branch: its own fetch-time pc plus the displacement (R230). -/
def branchTarget (pc imm : Word) : Word := wrap32 (pc.toInt + imm.toInt)

/-- The target of JUMP: the resolved source plus the displacement, absolute (R229, R230). -/
def jumpTarget (v imm : Word) : Word := wrap32 (v.toInt + imm.toInt)

end Sys2Proof.Machine
end

