-- ==== Sys2Proof/Machine/Alu.lean ====
section
/-! DEFINITION. ALU instructions, load-constant and compare (spec/42_alu_and_compare.md). A meaning
gives the instruction's action in the stage the engine is evaluating (00_scope.md R12; log 1). -/

namespace Sys2Proof.Machine

/-! ### Results (R171, R172) -/

/-- `wrap32(a + b)`. -/
def addWords (a b : Word) : Word := wrap32 (a.toInt + b.toInt)
/-- `wrap32(a − b)`. -/
def subWords (a b : Word) : Word := wrap32 (a.toInt - b.toInt)
/-- `wrap32(a × b)`. -/
def mulWords (a b : Word) : Word := wrap32 (a.toInt * b.toInt)
/-- `quot(a, b)`: the signed quotient rounded toward zero, `sign(a)·sign(b)·floor(|a| / |b|)`. -/
def quotWords (a b : Word) : Word :=
  wrap32 (a.toInt.sign * b.toInt.sign * ((a.toInt.natAbs / b.toInt.natAbs : Nat) : Int))

/-- The least word, −2^31. -/
def minWord : Word := wrap32 (-2147483648)
/-- The word −1. -/
def minusOne : Word := wrap32 (-1)

/-! ### Execute of the result-producing kinds (R122, R148, R170) -/

/-- The result goes to the latch and to the Execute tap; the flags are not touched (R174, R184). -/
def publish (rd : Reg) (v : Word) (l : Latch) (s : State) : Res :=
  .next (toMemory { l with result := some v } (some (rd, v)) s)

/-- The same for the arithmetic kinds, which set both flags from the result (R173). -/
def publishArith (rd : Reg) (v : Word) (l : Latch) (s : State) : Res :=
  publish rd v l (setResultFlags v s)

/-- Execute of DIV (R178): the two fatal cases, tested in this order, then the quotient. -/
def divide (rd : Reg) (l : Latch) (s : State) : Res :=
  if l.rs2v = 0 then raise (.divideByZero l.pc) s
  else if l.rs1v = minWord ∧ l.rs2v = minusOne then raise (.divideOverflow l.pc) s
  else publishArith rd (quotWords l.rs1v l.rs2v) l s

/-! ### The meanings -/

/-- ADD (R175). -/
def execAdd (rd rs1 rs2 : Reg) (s : State) : Res :=
  match s.stage with
  | .fetch => fetched (.add rd rs1 rs2) s
  | .decode => onLatch s.latD s (issue (some rs1) (some rs2) [rd])
  | .execute => onLatch s.latE s fun l => publishArith rd (addWords l.rs1v l.rs2v) l
  | .memory => onLatch s.latM s (passResult rd)
  | .writeback => onLatch s.latW s (retireResult rd)

/-- SUB (R176). -/
def execSub (rd rs1 rs2 : Reg) (s : State) : Res :=
  match s.stage with
  | .fetch => fetched (.sub rd rs1 rs2) s
  | .decode => onLatch s.latD s (issue (some rs1) (some rs2) [rd])
  | .execute => onLatch s.latE s fun l => publishArith rd (subWords l.rs1v l.rs2v) l
  | .memory => onLatch s.latM s (passResult rd)
  | .writeback => onLatch s.latW s (retireResult rd)

/-- MUL (R177). -/
def execMul (rd rs1 rs2 : Reg) (s : State) : Res :=
  match s.stage with
  | .fetch => fetched (.mul rd rs1 rs2) s
  | .decode => onLatch s.latD s (issue (some rs1) (some rs2) [rd])
  | .execute => onLatch s.latE s fun l => publishArith rd (mulWords l.rs1v l.rs2v) l
  | .memory => onLatch s.latM s (passResult rd)
  | .writeback => onLatch s.latW s (retireResult rd)

/-- DIV (R178). -/
def execDiv (rd rs1 rs2 : Reg) (s : State) : Res :=
  match s.stage with
  | .fetch => fetched (.div rd rs1 rs2) s
  | .decode => onLatch s.latD s (issue (some rs1) (some rs2) [rd])
  | .execute => onLatch s.latE s (divide rd)
  | .memory => onLatch s.latM s (passResult rd)
  | .writeback => onLatch s.latW s (retireResult rd)

/-- AND (R179). -/
def execAnd (rd rs1 rs2 : Reg) (s : State) : Res :=
  match s.stage with
  | .fetch => fetched (.and rd rs1 rs2) s
  | .decode => onLatch s.latD s (issue (some rs1) (some rs2) [rd])
  | .execute => onLatch s.latE s fun l => publish rd (l.rs1v &&& l.rs2v) l
  | .memory => onLatch s.latM s (passResult rd)
  | .writeback => onLatch s.latW s (retireResult rd)

/-- OR (R180). -/
def execOr (rd rs1 rs2 : Reg) (s : State) : Res :=
  match s.stage with
  | .fetch => fetched (.or rd rs1 rs2) s
  | .decode => onLatch s.latD s (issue (some rs1) (some rs2) [rd])
  | .execute => onLatch s.latE s fun l => publish rd (l.rs1v ||| l.rs2v) l
  | .memory => onLatch s.latM s (passResult rd)
  | .writeback => onLatch s.latW s (retireResult rd)

/-- XOR (R181). -/
def execXor (rd rs1 rs2 : Reg) (s : State) : Res :=
  match s.stage with
  | .fetch => fetched (.xor rd rs1 rs2) s
  | .decode => onLatch s.latD s (issue (some rs1) (some rs2) [rd])
  | .execute => onLatch s.latE s fun l => publish rd (l.rs1v ^^^ l.rs2v) l
  | .memory => onLatch s.latM s (passResult rd)
  | .writeback => onLatch s.latW s (retireResult rd)

/-- ADDL (R182). -/
def execAddl (rd rs1 : Reg) (imm : Word) (s : State) : Res :=
  match s.stage with
  | .fetch => fetched (.addl rd rs1 imm) s
  | .decode => onLatch s.latD s (issue (some rs1) none [rd])
  | .execute => onLatch s.latE s fun l => publishArith rd (addWords l.rs1v imm) l
  | .memory => onLatch s.latM s (passResult rd)
  | .writeback => onLatch s.latW s (retireResult rd)

/-- SUBL (R183). -/
def execSubl (rd rs1 : Reg) (imm : Word) (s : State) : Res :=
  match s.stage with
  | .fetch => fetched (.subl rd rs1 imm) s
  | .decode => onLatch s.latD s (issue (some rs1) none [rd])
  | .execute => onLatch s.latE s fun l => publishArith rd (subWords l.rs1v imm) l
  | .memory => onLatch s.latM s (passResult rd)
  | .writeback => onLatch s.latW s (retireResult rd)

/-- LOADCONST (R184). -/
def execLoadconst (rd : Reg) (imm : Word) (s : State) : Res :=
  match s.stage with
  | .fetch => fetched (.loadconst rd imm) s
  | .decode => onLatch s.latD s (issue none none [rd])
  | .execute => onLatch s.latE s (publish rd imm)
  | .memory => onLatch s.latM s (passResult rd)
  | .writeback => onLatch s.latW s (retireResult rd)

/-- Execute of CMP (R190): both flags, no result, no tap. -/
def compareOnly (l : Latch) (s : State) : Res :=
  .next (toMemory l none (setCompareFlags l.rs1v l.rs2v s))

/-- CMP (R190). -/
def execCmp (rs1 rs2 : Reg) (s : State) : Res :=
  match s.stage with
  | .fetch => fetched (.cmp rs1 rs2) s
  | .decode => onLatch s.latD s (issue (some rs1) (some rs2) [])
  | .execute => onLatch s.latE s compareOnly
  | .memory => onLatch s.latM s passNothing
  | .writeback => onLatch s.latW s fun _ => retireNothing

end Sys2Proof.Machine
end

