-- ==== Sys2Proof/Machine/Control.lean ====
section
/-! DEFINITION. Control transfer (spec/44_control_transfer.md). A meaning gives the instruction's
action in the stage the engine is evaluating (00_scope.md R12; log 1). -/

namespace Sys2Proof.Machine

/-- Execute of a conditional branch (R224, R225 to R228): taken to its own fetch-time pc plus the
displacement where the predicate holds; nothing is published either way. -/
def branchIf (holds : Bool) (imm : Word) (l : Latch) (s : State) : Res :=
  .next (toMemory l none (if holds then taken (branchTarget l.pc imm) s else s))

/-- Execute of JUMP (R229). -/
def jump (imm : Word) (l : Latch) (s : State) : Res :=
  .next (toMemory l none (taken (jumpTarget l.rs1v imm) s))

/-- BZ (R225). -/
def execBz (imm : Word) (s : State) : Res :=
  match s.stage with
  | .fetch => fetched (.bz imm) s
  | .decode => onLatch s.latD s (issue none none [])
  | .execute => onLatch s.latE s (branchIf s.zFlag imm)
  | .memory => onLatch s.latM s passNothing
  | .writeback => onLatch s.latW s fun _ => retireNothing

/-- BNZ (R226). -/
def execBnz (imm : Word) (s : State) : Res :=
  match s.stage with
  | .fetch => fetched (.bnz imm) s
  | .decode => onLatch s.latD s (issue none none [])
  | .execute => onLatch s.latE s (branchIf (!s.zFlag) imm)
  | .memory => onLatch s.latM s passNothing
  | .writeback => onLatch s.latW s fun _ => retireNothing

/-- BP (R227). -/
def execBp (imm : Word) (s : State) : Res :=
  match s.stage with
  | .fetch => fetched (.bp imm) s
  | .decode => onLatch s.latD s (issue none none [])
  | .execute => onLatch s.latE s (branchIf s.pFlag imm)
  | .memory => onLatch s.latM s passNothing
  | .writeback => onLatch s.latW s fun _ => retireNothing

/-- BNP (R228). -/
def execBnp (imm : Word) (s : State) : Res :=
  match s.stage with
  | .fetch => fetched (.bnp imm) s
  | .decode => onLatch s.latD s (issue none none [])
  | .execute => onLatch s.latE s (branchIf (!s.pFlag) imm)
  | .memory => onLatch s.latM s passNothing
  | .writeback => onLatch s.latW s fun _ => retireNothing

/-- JUMP (R229). -/
def execJump (rs1 : Reg) (imm : Word) (s : State) : Res :=
  match s.stage with
  | .fetch => fetched (.jump rs1 imm) s
  | .decode => onLatch s.latD s (issue (some rs1) none [])
  | .execute => onLatch s.latE s (jump imm)
  | .memory => onLatch s.latM s passNothing
  | .writeback => onLatch s.latW s fun _ => retireNothing

end Sys2Proof.Machine
end

