-- ==== Sys2Proof/Machine/LoadStore.lean ====
section
/-! DEFINITION. Loads and stores (spec/43_load_store.md). A meaning gives the instruction's action in
the stage the engine is evaluating (00_scope.md R12; log 1). No load or store touches a flag (R200). -/

namespace Sys2Proof.Machine

/-- Execute of LOAD and STORE: the word index goes to the latch, nothing to the tap (R148, R201,
R202). -/
def address (base imm : Word) (l : Latch) (s : State) : Res :=
  .next (toMemory { l with memAddr := some (effAddr base imm) } none s)

/-- Execute of LDI and STI: the word index from the old base, and the next base, which is the Execute
tap of the base register (R148, R203, R204, R205). -/
def addressIndexed (baseReg : Reg) (base imm : Word) (l : Latch) (s : State) : Res :=
  .next (toMemory
    { l with memAddr := some (effAddr base imm), bypass := some (postIncrement base) }
    (some (baseReg, postIncrement base)) s)

/-- LOAD (R201). -/
def execLoad (rd rs1 : Reg) (imm : Word) (s : State) : Res :=
  match s.stage with
  | .fetch => fetched (.load rd rs1 imm) s
  | .decode => onLatch s.latD s (issue (some rs1) none [rd])
  | .execute => onLatch s.latE s fun l => address l.rs1v imm l
  | .memory => onLatch s.latM s (loadWord rd)
  | .writeback => onLatch s.latW s (retireResult rd)

/-- STORE (R202). -/
def execStore (rs1 rs2 : Reg) (imm : Word) (s : State) : Res :=
  match s.stage with
  | .fetch => fetched (.store rs1 rs2 imm) s
  | .decode => onLatch s.latD s (issue (some rs1) (some rs2) [])
  | .execute => onLatch s.latE s fun l => address l.rs2v imm l
  | .memory => onLatch s.latM s storeWord
  | .writeback => onLatch s.latW s fun _ => retireNothing

/-- Writeback of LDI (R127): the loaded word to `rd`, then the next base to the base register. -/
def retireIndexedLoad (rd rs1 : Reg) (l : Latch) (s : State) : Res :=
  .next (retire (commit rs1 l.nextBase (commit rd l.res s)))

/-- LDI (R203). -/
def execLdi (rd rs1 : Reg) (imm : Word) (s : State) : Res :=
  match s.stage with
  | .fetch => fetched (.ldi rd rs1 imm) s
  | .decode => onLatch s.latD s (issue (some rs1) none [rd, rs1])
  | .execute => onLatch s.latE s fun l => addressIndexed rs1 l.rs1v imm l
  | .memory => onLatch s.latM s (loadWord rd)
  | .writeback => onLatch s.latW s (retireIndexedLoad rd rs1)

/-- Writeback of STI (R127): the next base to the base register, nothing else. -/
def retireBase (rs2 : Reg) (l : Latch) (s : State) : Res :=
  .next (retire (commit rs2 l.nextBase s))

/-- STI (R204). -/
def execSti (rs1 rs2 : Reg) (imm : Word) (s : State) : Res :=
  match s.stage with
  | .fetch => fetched (.sti rs1 rs2 imm) s
  | .decode => onLatch s.latD s (issue (some rs1) (some rs2) [rs2])
  | .execute => onLatch s.latE s fun l => addressIndexed rs2 l.rs2v imm l
  | .memory => onLatch s.latM s storeWord
  | .writeback => onLatch s.latW s (retireBase rs2)

end Sys2Proof.Machine
end

