-- ==== Sys2Proof/Machine/System.lean ====
section
/-! DEFINITION. HALT and NOP (spec/45_system.md). A meaning gives the instruction's action in the
stage the engine is evaluating (00_scope.md R12; log 1). -/

namespace Sys2Proof.Machine

/-- Execute of HALT and NOP: no action, no tap (R240, R241). -/
def noAction (l : Latch) (s : State) : Res := .next (toMemory l none s)

/-- Writeback of HALT: it retires and the tick will answer halted (R127, R240). -/
def retireHalt (s : State) : Res := .next { retire s with haltedNow := true }

/-- HALT (R240). -/
def execHalt (s : State) : Res :=
  match s.stage with
  | .fetch => fetchedHalt .halt s
  | .decode => onLatch s.latD s (issue none none [])
  | .execute => onLatch s.latE s noAction
  | .memory => onLatch s.latM s passNothing
  | .writeback => onLatch s.latW s fun _ => retireHalt

/-- NOP (R241). -/
def execNop (s : State) : Res :=
  match s.stage with
  | .fetch => fetched .nop s
  | .decode => onLatch s.latD s (issue none none [])
  | .execute => onLatch s.latE s noAction
  | .memory => onLatch s.latM s passNothing
  | .writeback => onLatch s.latW s fun _ => retireNothing

end Sys2Proof.Machine
end

