-- ==== Sys2Proof/Machine/Dispatch.lean ====
section
/-! DEFINITION. One arm for each instruction kind: its action in the stage `s.stage`, on that stage's
latch (spec/00_scope.md R12). -/

namespace Sys2Proof.Machine

def exec (i : Instr) (s : State) : Host.Outcome State Fault Refusal :=
  match i with
  -- 42_alu_and_compare.md
  | .add rd rs1 rs2 => Sys2Proof.Machine.execAdd rd rs1 rs2 s
  | .sub rd rs1 rs2 => Sys2Proof.Machine.execSub rd rs1 rs2 s
  | .mul rd rs1 rs2 => Sys2Proof.Machine.execMul rd rs1 rs2 s
  | .div rd rs1 rs2 => Sys2Proof.Machine.execDiv rd rs1 rs2 s
  | .and rd rs1 rs2 => Sys2Proof.Machine.execAnd rd rs1 rs2 s
  | .or rd rs1 rs2 => Sys2Proof.Machine.execOr rd rs1 rs2 s
  | .xor rd rs1 rs2 => Sys2Proof.Machine.execXor rd rs1 rs2 s
  | .addl rd rs1 imm => Sys2Proof.Machine.execAddl rd rs1 imm s
  | .subl rd rs1 imm => Sys2Proof.Machine.execSubl rd rs1 imm s
  -- 43_load_store.md
  | .load rd rs1 imm => Sys2Proof.Machine.execLoad rd rs1 imm s
  | .store rs1 rs2 imm => Sys2Proof.Machine.execStore rs1 rs2 imm s
  | .ldi rd rs1 imm => Sys2Proof.Machine.execLdi rd rs1 imm s
  | .sti rs1 rs2 imm => Sys2Proof.Machine.execSti rs1 rs2 imm s
  -- 42_alu_and_compare.md
  | .loadconst rd imm => Sys2Proof.Machine.execLoadconst rd imm s
  -- 44_control_transfer.md
  | .jump rs1 imm => Sys2Proof.Machine.execJump rs1 imm s
  | .bz imm => Sys2Proof.Machine.execBz imm s
  | .bnz imm => Sys2Proof.Machine.execBnz imm s
  | .bp imm => Sys2Proof.Machine.execBp imm s
  | .bnp imm => Sys2Proof.Machine.execBnp imm s
  -- 42_alu_and_compare.md
  | .cmp rs1 rs2 => Sys2Proof.Machine.execCmp rs1 rs2 s
  -- 45_system.md
  | .halt => Sys2Proof.Machine.execHalt s
  | .nop => Sys2Proof.Machine.execNop s

end Sys2Proof.Machine
end

