-- ==== Sys2Proof/Machine/Engine.lean ====
section
/-! DEFINITION. The engine: how each stage is evaluated and the order of a tick
(spec/40_pipeline_engine.md R110 to R127), and how a program is loaded (30_encoding.md R93,
60_exceptions.md R251; log 9, 10). -/

namespace Sys2Proof.Machine

/-! ### The stages -/

/-- A stage begins: Memory and Execute clear their tap first (R121, R122, R150). -/
def State.enter (s : State) (st : Stage) : State :=
  match st with
  | .memory => { s with stage := .memory, tapM := none }
  | .execute => { s with stage := .execute, tapE := none }
  | .writeback => { s with stage := .writeback }
  | .decode => { s with stage := .decode }
  | .fetch => { s with stage := .fetch }

/-- Execute, Memory and Writeback: the action of the instruction in the latch, nothing for an empty one
(R114). A latch past Decode with no instruction is stuck (log 8). -/
def runLatch (st : Stage) (l : Option Latch) (s : State) : Res :=
  match l with
  | none => .next s
  | some l =>
    match l.instr with
    | some i => exec i s
    | none => .fault (.noInstruction st)

/-- `Writeback()` (R127). -/
def writebackStage (s : State) : Res := runLatch .writeback s.latW (s.enter .writeback)

/-- `Memory()` (R121). -/
def memoryStage (s : State) : Res := runLatch .memory s.latM (s.enter .memory)

/-- `Execute()` (R122). -/
def executeStage (s : State) : Res := runLatch .execute s.latE (s.enter .execute)

/-- What Decode does with an occupied latch (R140): `nofetch` raises before any other action (R153). -/
def decodeLatch (l : Latch) (s : State) : Res :=
  match l.instr with
  | some i => exec i s
  | none => raise (.fetchOutOfImage l.pc) s

/-- `Decode()` (R140). -/
def decodeStage (s : State) : Res := onLatch s.latD (s.enter .decode) decodeLatch

/-- The fetch proper (R115): the record at the pc, or a latch marked `nofetch` (R119). -/
def fetchAtPc (s : State) : Res :=
  match s.imageAt s.pc with
  | some i => exec i s
  | none => .next (fill none s)

/-- `Fetch()` (R115): suppressed (R117), held by a stalled Decode (R116), stopped after HALT (R118), or
a fetch. -/
def fetchStage (s : State) : Res :=
  if s.fetchSuppress then .next { s.enter .fetch with fetchSuppress := false, latF := none }
  else if s.latD.isSome then .next (s.enter .fetch)
  else if s.haltFetched then .next { s.enter .fetch with latF := none }
  else fetchAtPc (s.enter .fetch)

/-! ### The tick -/

/-- The next stage, unless a fatal condition has ended the tick (R111, R255). -/
def andThen (r : Res) (stage : State → Res) : Res :=
  match r with
  | .next s => if s.status = .running then stage s else .next s
  | .fault f => .fault f
  | .refused f => .refused f

/-- The end of a tick that completes: the cycle is counted, and the machine is halted if HALT retired
(R111, R112, R39, R41). -/
def endTick (s : State) : Res :=
  .next { s with
    cycles := s.cycles + 1
    status := if s.haltedNow then .halted else .running }

/-- The state Decode is evaluated in: after Writeback, Memory and Execute of this tick (R110). -/
def frontHalf (s : State) : Res :=
  andThen (andThen (writebackStage { s with haltedNow := false }) memoryStage) executeStage

/-- `tick()` from a running state: Writeback, Memory, Execute, Decode, Fetch (R110, R111). -/
def tick (s : State) : Res :=
  andThen (andThen (andThen (frontHalf s) decodeStage) fetchStage) endTick

/-! ### Loading a program -/

/-- The loader's check (R93): the records of the words, or the index of the first malformed word,
counted from `n`. -/
def loadImage (n : Nat) (ws : List Word) : List Instr ⊕ Nat :=
  match ws with
  | [] => .inl []
  | w :: ws =>
    match decode w with
    | .malformed _ => .inr n
    | .ok i =>
      match loadImage (n + 1) ws with
      | .inl is => .inl (i :: is)
      | .inr k => .inr k

/-- Load a program: its image, or `MalformedImage` and a machine that never starts (R93, R251). -/
def State.load (s : State) (ws : List Word) : State :=
  match loadImage 0 ws with
  | .inl is => { s with image := is }
  | .inr k => { s with status := .faulted (.malformedImage k) }

/-- The pipeline emptied and the machine running: what the very next tick needs to fetch. The
registers, flags, data memory, pc and counters stay. -/
def State.drained (s : State) : State :=
  { s with
    busy := Vector.replicate 16 false
    latF := none, latD := none, latE := none, latM := none, latW := none
    tapE := none, tapM := none
    fetchSuppress := false, haltFetched := false, status := .running }

/-- The image with entry `k` replaced by `i`, filled with NOP where it is shorter. -/
def placeAt (k : Nat) (i : Instr) (image : List Instr) : List Instr :=
  match k, image with
  | 0, [] => [i]
  | 0, _ :: image => i :: image
  | k + 1, [] => .nop :: placeAt k i []
  | k + 1, j :: image => j :: placeAt k i image

/-- The pc can be the address of an image entry: at or above `PC_BASE`, a whole number of
instructions from it (R26). -/
def State.pcAligned (s : State) : Bool :=
  let off := s.pc.toInt - s.params.pcBase.toInt
  decide (0 ≤ off) && decide (off % Config.instrWidth = 0)

/-- The record `i` placed where the very next tick fetches; a pc that can address no image entry goes
back to `PC_BASE` (log 9). -/
def State.withFetch (s : State) (i : Instr) : State :=
  if s.pcAligned then
    { s.drained with image := placeAt (s.imageIndex s.pc) i s.image }
  else
    { s.drained with pc := s.params.pcBase, image := placeAt 0 i s.image }

end Sys2Proof.Machine
end

