-- ==== Sys2Proof/Machine/Step.lean ====
section
/-! DEFINITION. One step of the machine is one tick (spec/40_pipeline_engine.md R110, R113). -/

namespace Sys2Proof.Machine

/-- One tick. From `Halted` or `Faulted` there is none (R113, R255). -/
def step (s : State) : Host.Outcome State Fault Refusal :=
  match s.status with
  | .running => tick s
  | .halted => .refused .tickAfterHalt
  | .faulted f => .refused (.tickAfterFatal f)

/-- The state with the instruction of the table word `w` where the very next tick fetches it. For a
malformed word the loader refuses the image, and the machine never starts (R93, R251; log 10). -/
def State.withFetchWord (s : State) (nbits w : Nat) : State :=
  match decodeTableWord nbits w with
  | some i => s.withFetch i
  | none => { s with status := .faulted (.malformedImage 0) }

end Sys2Proof.Machine
end

