-- ==== Sys2Proof/Machine/Sequential.lean ====
section
/-! DEFINITION. The "architectural effect" each instruction rule gives (spec/70_reset_and_hazards.md
R290), one instruction at a time with no pipeline: what claims about the pipeline are compared with.
It is no part of `step`. -/

namespace Sys2Proof.Machine

/-- What a program computes on: registers, flags, data memory, and the address of the next
instruction. -/
structure Arch where
  regs : Vector Word 16
  zFlag : Bool
  pFlag : Bool
  mem : Memory
  pc : Word
  deriving DecidableEq, Repr

/-- The architectural part of a state. -/
def State.arch (s : State) : Arch :=
  { regs := s.regs, zFlag := s.zFlag, pFlag := s.pFlag, mem := s.mem, pc := s.pc }

/-- `x[r]`. -/
def Arch.reg (a : Arch) (r : Reg) : Word := a.regs[r]

/-- `x[r] <- v`. -/
def Arch.setReg (a : Arch) (r : Reg) (v : Word) : Arch := { a with regs := a.regs.set r v }

/-- On to the next instruction in the image. -/
def Arch.advance (a : Arch) : Arch := { a with pc := nextPc a.pc }

/-- A result with the flags it sets (R173). -/
def Arch.arith (a : Arch) (rd : Reg) (v : Word) : Arch :=
  ({ a with zFlag := decide (v.toInt = 0), pFlag := decide (v.toInt > 0) }.setReg rd v).advance

/-- A result that sets no flag. -/
def Arch.plain (a : Arch) (rd : Reg) (v : Word) : Arch := (a.setReg rd v).advance

/-- A conditional branch (R225 to R228). -/
def Arch.branch (a : Arch) (holds : Bool) (imm : Word) : Arch :=
  if holds then { a with pc := branchTarget a.pc imm } else a.advance

/-- A word index is in bounds for a data memory of `size` words (20_memory.md R61). -/
def inRange (size : Nat) (a : Word) : Bool := decide (0 ≤ a.toInt) && decide (a.toInt < (size : Int))

/-- The architectural effect of one instruction, or the fatal condition it raises (R290 and the
instruction's rule). -/
def Arch.exec (size : Nat) (i : Instr) (a : Arch) : Arch ⊕ Fatal :=
  match i with
  | .add rd rs1 rs2 => .inl (a.arith rd (addWords (a.reg rs1) (a.reg rs2)))
  | .sub rd rs1 rs2 => .inl (a.arith rd (subWords (a.reg rs1) (a.reg rs2)))
  | .mul rd rs1 rs2 => .inl (a.arith rd (mulWords (a.reg rs1) (a.reg rs2)))
  | .div rd rs1 rs2 =>
    if a.reg rs2 = 0 then .inr (.divideByZero a.pc)
    else if a.reg rs1 = minWord ∧ a.reg rs2 = minusOne then .inr (.divideOverflow a.pc)
    else .inl (a.arith rd (quotWords (a.reg rs1) (a.reg rs2)))
  | .and rd rs1 rs2 => .inl (a.plain rd (a.reg rs1 &&& a.reg rs2))
  | .or rd rs1 rs2 => .inl (a.plain rd (a.reg rs1 ||| a.reg rs2))
  | .xor rd rs1 rs2 => .inl (a.plain rd (a.reg rs1 ^^^ a.reg rs2))
  | .addl rd rs1 imm => .inl (a.arith rd (addWords (a.reg rs1) imm))
  | .subl rd rs1 imm => .inl (a.arith rd (subWords (a.reg rs1) imm))
  | .load rd rs1 imm =>
    let ea := effAddr (a.reg rs1) imm
    if inRange size ea then .inl (a.plain rd (a.mem.read ea.toNat))
    else .inr (.memoryOutOfBounds a.pc ea)
  | .store rs1 rs2 imm =>
    let ea := effAddr (a.reg rs2) imm
    if inRange size ea then .inl { a with mem := a.mem.write ea.toNat (a.reg rs1) }.advance
    else .inr (.memoryOutOfBounds a.pc ea)
  | .ldi rd rs1 imm =>
    let ea := effAddr (a.reg rs1) imm
    if inRange size ea then
      .inl ((a.setReg rd (a.mem.read ea.toNat)).setReg rs1 (postIncrement (a.reg rs1))).advance
    else .inr (.memoryOutOfBounds a.pc ea)
  | .sti rs1 rs2 imm =>
    let ea := effAddr (a.reg rs2) imm
    if inRange size ea then
      .inl ({ a with mem := a.mem.write ea.toNat (a.reg rs1) }.setReg rs2
        (postIncrement (a.reg rs2))).advance
    else .inr (.memoryOutOfBounds a.pc ea)
  | .loadconst rd imm => .inl (a.plain rd imm)
  | .jump rs1 imm => .inl { a with pc := jumpTarget (a.reg rs1) imm }
  | .bz imm => .inl (a.branch a.zFlag imm)
  | .bnz imm => .inl (a.branch (!a.zFlag) imm)
  | .bp imm => .inl (a.branch a.pFlag imm)
  | .bnp imm => .inl (a.branch (!a.pFlag) imm)
  | .cmp rs1 rs2 =>
    .inl { a with
      zFlag := decide (a.reg rs1 = a.reg rs2)
      pFlag := decide ((a.reg rs1).toInt > (a.reg rs2).toInt) }.advance
  | .halt => .inl a.advance
  | .nop => .inl a.advance

/-! ### One instruction alone in the pipeline -/

/-- The five actions of `i` in the order an instruction meets them (40_pipeline_engine.md R125), with
nothing else in the pipeline. -/
def passAlone (i : Instr) (s : State) : Res :=
  andThen (andThen (andThen (andThen
    (exec i (s.enter .fetch))
    fun s => exec i (s.enter .decode))
    fun s => exec i (s.enter .execute))
    fun s => exec i (s.enter .memory))
    fun s => exec i (s.enter .writeback)

/-! ### Completing what is in flight -/

/-- The instructions that have left Decode completed in program order, with the machine's own stages:
the one in `W`, the one in `M`, the one in `E`. -/
def completeIssued (s : State) : Res :=
  andThen (andThen (andThen (andThen (andThen
    (writebackStage { s with status := .running }) memoryStage) writebackStage)
    executeStage) memoryStage) writebackStage

/-- The address of the instruction that is next to leave Decode: the one in `D`, else the pc. -/
def State.nextIssue (s : State) : Word :=
  match s.latD with
  | some l => l.pc
  | none => s.pc

/-- The architectural state once everything issued has completed; `none` where that raises a fatal
condition. -/
def State.committed (s : State) : Option Arch :=
  match completeIssued s with
  | .next t => if t.status = .running then some { t.arch with pc := t.nextIssue } else none
  | .fault _ => none
  | .refused _ => none

end Sys2Proof.Machine
end

