-- ==== Sys2Proof/Safety.lean ====
section
/-! DEFINITION. What counts as a safe state, and the invariants of the pipeline, in the terms the
claims use (spec/10_state.md R22, R37, R38, R42; spec/41_decode_hazard_forwarding.md R151). -/

namespace Sys2Proof.Machine

/-- No fatal condition has been raised. -/
def State.safe (s : State) : Bool :=
  match s.status with
  | .faulted _ => false
  | .halted => true
  | .running => true

/-- The instruction a latch holds, if it is occupied and holds one. -/
def instrIn (l : Option Latch) : Option Instr :=
  match l with
  | some l => l.instr
  | none => none

/-- The destinations of the instruction in a latch (R141). -/
def destsIn (l : Option Latch) : List Reg :=
  match instrIn l with
  | some i => dests i
  | none => []

/-- The destinations of every instruction that has left Decode and not retired (R22). -/
def State.claimed (s : State) : List Reg := destsIn s.latE ++ destsIn s.latM ++ destsIn s.latW

/-- Data memory is in canonical form and holds only the words that exist (R42). -/
def State.memOk (s : State) : Bool := Memory.wf s.params.dataMemWords s.mem

/-- The fetch suppression is clear between ticks (R37). -/
def State.suppressOk (s : State) : Bool := !s.fetchSuppress

/-- Every record of the image is one the core's rules are stated over (30_encoding.md R93). -/
def State.imageOk (s : State) : Bool := s.image.all Instr.legal

/-- A register is busy exactly while an instruction in flight holds it as a destination (R22). -/
def State.busyOk (s : State) : Bool := decide (∀ r : Reg, s.isBusy r = s.claimed.contains r)

/-- No register is held by two instructions in flight, nor twice by one (R22, R151). -/
def State.claimsOk (s : State) : Bool := decide s.claimed.Nodup

/-- `D` holds what Fetch reads at its address, and the pc is one instruction further on (R115). -/
def State.decodeLatchOk (s : State) : Bool :=
  match s.latD with
  | none => true
  | some l => decide (l.instr = s.imageAt l.pc) && decide (s.pc = nextPc l.pc)

/-- A kind reads or writes data memory (R66). -/
def accessesMemory : Instr → Bool
  | .load _ _ _ | .store _ _ _ | .ldi _ _ _ | .sti _ _ _ => true
  | _ => false

/-- A kind's result is read from data memory. -/
def isLoad : Instr → Bool
  | .load _ _ _ | .ldi _ _ _ => true
  | _ => false

/-- A kind rewrites its base register (R205). -/
def isIndexed : Instr → Bool
  | .ldi _ _ _ | .sti _ _ _ => true
  | _ => false

/-- The sources of a kind are resolved in its latch (R140). -/
def operandsPresent (i : Instr) (l : Latch) : Bool :=
  (l.rs1Val.isSome == i.rs1Opt.isSome) && (l.rs2Val.isSome == i.rs2Opt.isSome)

/-- What Execute computes for a kind is in its latch (R31). -/
def executedPresent (i : Instr) (l : Latch) : Bool :=
  (!accessesMemory i || l.memAddr.isSome) && (!isIndexed i || l.bypass.isSome) &&
    (i.rdOpt.isNone || isLoad i || l.result.isSome)

/-- `E` holds a legal instruction with its sources resolved. -/
def State.executeLatchOk (s : State) : Bool :=
  match s.latE with
  | none => true
  | some l =>
    match l.instr with
    | none => false
    | some i => i.legal && operandsPresent i l

/-- `M` holds a legal instruction with its sources resolved and its Execute fields computed. -/
def State.memoryLatchOk (s : State) : Bool :=
  match s.latM with
  | none => true
  | some l =>
    match l.instr with
    | none => false
    | some i => i.legal && operandsPresent i l && executedPresent i l

/-- `W` holds a legal instruction with everything it writes back computed. -/
def State.writebackLatchOk (s : State) : Bool :=
  match s.latW with
  | none => true
  | some l =>
    match l.instr with
    | none => false
    | some i =>
      i.legal && (i.rdOpt.isNone || l.result.isSome) && (!isIndexed i || l.bypass.isSome)

/-- Nothing follows a HALT in the pipeline, and fetch has stopped behind it (R38, 45_system.md R240). -/
def State.haltOk (s : State) : Bool :=
  (instrIn s.latD != some .halt || s.haltFetched) &&
  (instrIn s.latE != some .halt || (s.haltFetched && s.latD.isNone)) &&
  (instrIn s.latM != some .halt || (s.haltFetched && s.latD.isNone && s.latE.isNone)) &&
  (instrIn s.latW != some .halt || (s.haltFetched && s.latD.isNone && s.latE.isNone && s.latM.isNone))

/-- The invariant of the pipeline: every part holds at reset and every step keeps it. -/
structure State.Inv (s : State) : Prop where
  mem : s.memOk = true
  suppress : s.suppressOk = true
  image : s.imageOk = true
  busy : s.busyOk = true
  claims : s.claimsOk = true
  decodeLatch : s.decodeLatchOk = true
  executeLatch : s.executeLatchOk = true
  memoryLatch : s.memoryLatchOk = true
  writebackLatch : s.writebackLatchOk = true
  halt : s.haltOk = true

/-- Nothing is in flight and nothing is held up: every latch a stage reads is empty, no register is
busy, no tap is active, fetch is free, and the machine runs. -/
structure State.Idle (s : State) : Prop where
  running : s.status = .running
  latD : s.latD = none
  latE : s.latE = none
  latM : s.latM = none
  latW : s.latW = none
  busy : ∀ r, s.isBusy r = false
  tapE : s.tapE = none
  tapM : s.tapM = none
  suppress : s.fetchSuppress = false
  halt : s.haltFetched = false

/-- Decode stalls in this tick (R146): the same latch is in `D` after it, the pc has not moved, and the
machine still runs. -/
def State.Stalls (s : State) : Prop :=
  ∃ l t, s.latD = some l ∧ step s = .next t ∧ t.latD = some l ∧ t.pc = s.pc ∧ t.status = .running

end Sys2Proof.Machine
end

