-- ==== Sys2Proof/Certificates/Slice0/Obligations.lean ====
section
/-! DEFINITION. The statements for the provers. Where a clause gives a stage's action as one next
state written out field by field, every field not named is unchanged: the equation is the
instruction's frame in that stage too. -/

open Sys2Proof Sys2Proof.Machine

namespace Sys2Proof.Machine.Claim

/-- The Fetch action of a kind (40_pipeline_engine.md R115), HALT's flag aside. -/
def Fetches (i : Instr) : Prop :=
  ∀ s : State, s.stage = .fetch → i ≠ .halt →
    exec i s = .next { s with
      latF := some { pc := s.pc, instr := some i }
      latD := some { pc := s.pc, instr := some i }
      pc := wrap32 (s.pc.toInt + 4) }

/-- The sources and destinations a kind has in Decode (R141); what Decode does with them is stated by
`Obligations.SuccessfulDecodeIssues`, `SourceStallChangesNothing` and `DestinationStallChangesNothing`. -/
def Decodes (i : Instr) (srcs ds : List Reg) : Prop := sources i = srcs ∧ dests i = ds

/-- Memory of a kind that accesses nothing: its tap, the handoff, and nothing else (R121). -/
def PassesThrough (i : Instr) (tap : Latch → Option (Reg × Word)) : Prop :=
  ∀ (s : State) (l : Latch), s.stage = .memory → s.latM = some l →
    exec i s = .next { s with tapM := tap l, latW := some l, latM := none }

/-- Writeback of a kind that writes `rd` only (R127). -/
def WritesBack (i : Instr) (rd : Reg) : Prop :=
  ∀ (s : State) (l : Latch) (v : Word), s.stage = .writeback → s.latW = some l → l.result = some v →
    exec i s = .next { s with
      regs := s.regs.set rd v
      busy := s.busy.set rd false
      retired := s.retired + 1
      latW := none }

/-- Writeback of a kind that writes no register (R127). -/
def WritesNothingBack (i : Instr) : Prop :=
  ∀ (s : State) (l : Latch), s.stage = .writeback → s.latW = some l →
    exec i s = .next { s with retired := s.retired + 1, latW := none }

/-- The whole of a result-producing kind that accesses no memory and cannot fail (R170): its sources
and destination, its Execute action for operand values `a` and `b`, with the flags of R173 if it sets
them, and its Memory and Writeback actions. -/
def ResultKind (i : Instr) (srcs : List Reg) (rd : Reg) (value : Word → Word → Word)
    (setsFlags : Bool) : Prop :=
  Fetches i ∧ Decodes i srcs [rd] ∧
  (∀ (s : State) (l : Latch) (a b : Word), s.stage = .execute → s.latE = some l →
    (i.rs1Opt.isSome = true → l.rs1Val = some a) → (i.rs2Opt.isSome = true → l.rs2Val = some b) →
    exec i s = .next { s with
      zFlag := if setsFlags then decide ((value a b).toInt = 0) else s.zFlag
      pFlag := if setsFlags then decide ((value a b).toInt > 0) else s.pFlag
      tapE := some (rd, value a b)
      latM := some { l with result := some (value a b) }
      latE := none }) ∧
  PassesThrough i (fun l => some (rd, Latch.res l)) ∧ WritesBack i rd

/-- Memory of LOAD and LDI (R121, R75): the word in bounds, else the fatal condition and nothing
else. -/
def ReadsWord (i : Instr) (rd : Reg) : Prop :=
  ∀ (s : State) (l : Latch) (ea : Word), s.stage = .memory → s.latM = some l → l.memAddr = some ea →
    exec i s = .next (
      if 0 ≤ ea.toInt ∧ ea.toInt < (s.params.dataMemWords : Int) then
        { s with
          tapM := some (rd, s.mem.read ea.toNat)
          latW := some { l with result := some (s.mem.read ea.toNat) }
          latM := none }
      else { s with status := .faulted (.memoryOutOfBounds l.pc ea) })

/-- Memory of STORE and STI (R121, R75): in bounds, the word at the latch's index reads as the resolved
`rs1`, every other word as before, and nothing but the handoff changes besides; out of bounds, the
fatal condition and nothing else. -/
def WritesWord (i : Instr) : Prop :=
  ∀ (s : State) (l : Latch) (ea v : Word), s.stage = .memory → s.latM = some l →
    l.memAddr = some ea → l.rs1Val = some v → s.memOk = true →
    (0 ≤ ea.toInt ∧ ea.toInt < (s.params.dataMemWords : Int) →
      ∃ t, exec i s = .next t ∧
        (∀ a : Word, t.word a = if a = ea then v else s.word a) ∧
        t = { s with mem := t.mem, tapM := none, latW := some l, latM := none }) ∧
    (¬ (0 ≤ ea.toInt ∧ ea.toInt < (s.params.dataMemWords : Int)) →
      exec i s = .next { s with status := .faulted (.memoryOutOfBounds l.pc ea) })

/-- The state with these taps in place of its own. -/
def withTaps (s : State) (x y : Option (Reg × Word)) : State := { s with tapE := x, tapM := y }

/-- The state after a taken control transfer, before its latch moves on (R221, R222). -/
def Redirected (s : State) (target : Word) : State :=
  { s with
    pc := target
    fetchSuppress := true
    haltFetched :=
      if instrIn s.latD = some .halt ∧ s.params.haltFlagSticky = false then false else s.haltFetched
    latD := none }

/-- The whole of a conditional branch with this predicate of the flags (R225 to R228). -/
def BranchKind (i : Instr) (imm : Word) (holds : State → Bool) : Prop :=
  Fetches i ∧ Decodes i [] [] ∧
  (∀ (s : State) (l : Latch), s.stage = .execute → s.latE = some l →
    exec i s = .next {
      (if holds s = true then Redirected s (wrap32 (l.pc.toInt + imm.toInt)) else s) with
      tapE := none, latM := some l, latE := none }) ∧
  PassesThrough i (fun _ => none) ∧ WritesNothingBack i

end Sys2Proof.Machine.Claim

open Sys2Proof.Machine.Claim

/-! ### The instruction word (30_encoding.md) -/

/-- R92: `encode` places each field and zero elsewhere, and inverts `decode` both ways; `decode`
returns well-formed records only. -/
def Obligations.EncodeInvertsDecode : Prop :=
  (∀ i : Instr, i.wellFormed = true →
    opcodeField (encode i) = i.opcode ∧
    rdField (encode i) = (i.rdOpt.elim 0 fun r => r.val) ∧
    rs1Field (encode i) = (i.rs1Opt.elim 0 fun r => r.val) ∧
    rs2Field (encode i) = (i.rs2Opt.elim 0 fun r => r.val) ∧
    (immField (encode i) : Int) = (i.immOpt.elim 0 fun imm => imm.toInt % 2 ^ 15)) ∧
  (∀ i : Instr, i.wellFormed = true → decode (encode i) = .ok i) ∧
  (∀ (w : Word) (i : Instr), decode w = .ok i → i.wellFormed = true ∧ encode i = w)

/-- R88, R89, with the opcodes of R85 and the formats of R82: the malformed words, exactly. -/
def Obligations.MalformedWordsExactly : Prop :=
  ∀ w : Word, (∃ why, decode w = .malformed why) ↔
    opcodeField w = 0 ∨ 22 < opcodeField w ∨
    (opcodeField w ∈ [1, 2, 3, 4, 5, 6, 7] ∧ immField w ≠ 0) ∨
    (opcodeField w ∈ [8, 9, 10, 12] ∧ rs2Field w ≠ 0) ∨
    (opcodeField w ∈ [11, 13] ∧ rdField w ≠ 0) ∨
    (opcodeField w = 14 ∧ (rs1Field w ≠ 0 ∨ rs2Field w ≠ 0)) ∨
    (opcodeField w = 15 ∧ (rdField w ≠ 0 ∨ rs2Field w ≠ 0)) ∨
    (opcodeField w ∈ [16, 17, 18, 19] ∧ (rdField w ≠ 0 ∨ rs1Field w ≠ 0 ∨ rs2Field w ≠ 0)) ∨
    (opcodeField w = 20 ∧ (rdField w ≠ 0 ∨ immField w ≠ 0)) ∨
    (opcodeField w ∈ [21, 22] ∧
      (rdField w ≠ 0 ∨ rs1Field w ≠ 0 ∨ rs2Field w ≠ 0 ∨ immField w ≠ 0)) ∨
    (opcodeField w = 12 ∧ rdField w = rs1Field w)

/-- Words of 95_test_vectors.md section 2.1, one or more of each format, and three malformed ones. -/
def Obligations.SampleWordsDecode : Prop :=
  decode 0x08918000 = .ok (.add 1 2 3) ∧
  decode 0x17878000 = .ok (.sub 15 0 15) ∧
  decode 0x23C48000 = .ok (.div 7 8 9) ∧
  decode 0x36F78000 = .ok (.or 13 14 15) ∧
  decode 0x49987FFF = .ok (.subl 3 3 (-1)) ∧
  decode 0x51080002 = .ok (.load 2 1 2) ∧
  decode 0x58097FFC = .ok (.store 1 2 (-4)) ∧
  decode 0x72804000 = .ok (.loadconst 5 (-16384)) ∧
  decode 0x78307FF8 = .ok (.jump 6 (-8)) ∧
  decode 0x88007FF4 = .ok (.bnz (-12)) ∧
  decode 0xA0090000 = .ok (.cmp 1 2) ∧
  decode 0xA8000000 = .ok .halt ∧
  decode 0x00000000 = .malformed (.reservedOpcode 0) ∧
  decode 0xB0800000 = .malformed .unusedField ∧
  decode 0x60880000 = .malformed .ldiBaseIsDestination

/-! ### Reset and loading -/

/-- The state before the first tick (10_state.md section 9; the values are decision D22), for any
parameters, image and initial contents, which it holds as they are given, and the default one, whose
empty image is the model's choice (log 9). -/
def Obligations.StateBeforeFirstTick : Prop :=
  State.reset = State.initial Params.default [] (Vector.replicate 16 0) [] ∧
  Params.default.pcBase.toNat = 4000 ∧ Params.default.dataMemWords = 4096 ∧
  Params.default.haltFlagSticky = false ∧
  (∀ r, State.reset.reg r = 0) ∧ (∀ a, State.reset.word a = 0) ∧
  ∀ p image regs mem,
    let s := State.initial p image regs mem
    s.params = p ∧ s.image = image ∧ s.regs = regs ∧ s.mem = mem ∧
    (∀ r, s.isBusy r = false) ∧ s.pc = p.pcBase ∧
    s.zFlag = false ∧ s.pFlag = false ∧
    s.latF = none ∧ s.latD = none ∧ s.latE = none ∧ s.latM = none ∧ s.latW = none ∧
    s.tapE = none ∧ s.tapM = none ∧ s.fetchSuppress = false ∧ s.haltFetched = false ∧
    s.cycles = 0 ∧ s.retired = 0 ∧ s.status = .running ∧ s.imageAt s.pc = image[0]?

/-- The loader's check (R93, R251): an image whose words all decode is loaded as the records they decode
to, entry by entry; else the first malformed word's index is reported and the machine has no step
(that a refused load is a faulted state is the model's choice, log 10). -/
def Obligations.LoadChecksEveryWord : Prop :=
  ∀ (s : State) (ws : List Word),
    ((∀ w ∈ ws, ∃ i, decode w = .ok i) →
      (s.load ws).image.map Decoded.ok = ws.map decode ∧
        s.load ws = { s with image := (s.load ws).image }) ∧
    (∀ k (w : Word), ws[k]? = some w → (∃ why, decode w = .malformed why) →
      (∀ j (v : Word), j < k → ws[j]? = some v → ∃ i, decode v = .ok i) →
      s.load ws = { s with status := .faulted (.malformedImage k) } ∧
      step (s.load ws) = .refused (.tickAfterFatal (.malformedImage k)))

/-! ### The tick (40_pipeline_engine.md) -/

/-- The stages of a tick, in order, each seeing what the earlier ones wrote (R110), the end of a tick
that completes (R111, decision D23), and that a fatal condition ends the tick where it is raised (R111,
decision D20). -/
def Obligations.TickEvaluatesStagesInOrder : Prop :=
  (∀ s : State, s.status = .running →
    step s = andThen (andThen (andThen (andThen (andThen
      (writebackStage { s with haltedNow := false }) memoryStage) executeStage) decodeStage)
      fetchStage) endTick) ∧
  (∀ s : State, endTick s = .next { s with
    cycles := s.cycles + 1, status := if s.haltedNow = true then .halted else .running }) ∧
  (∀ (s : State) (f : State → Res), s.status = .running → andThen (.next s) f = f s) ∧
  (∀ (s : State) (f : State → Res), s.status ≠ .running → andThen (.next s) f = .next s)

/-- When nothing is in flight and the record at the pc is `i`, the step is the Fetch action of `i`, and
the cycle counted. The second clause is about the model's own `withFetchWord` (log 9, DESIGN CHOICE): it
makes this so for the instruction of any table word. -/
def Obligations.StepRunsDecodedInstruction : Prop :=
  (∀ (s : State) (i : Instr), s.Idle → s.imageAt s.pc = some i →
    ∃ t, exec i { s with haltedNow := false, stage := .fetch } = .next t ∧
      step s = .next { t with cycles := t.cycles + 1, status := .running }) ∧
  (∀ (s : State) (nbits w : Nat) (i : Instr), decodeTableWord nbits w = some i →
    (s.withFetchWord nbits w).Idle ∧
    (s.withFetchWord nbits w).imageAt (s.withFetchWord nbits w).pc = some i)

/-- R12, R114: a stage runs the action of the instruction its latch holds, and an empty latch leaves
nothing but the cleared tap. -/
def Obligations.StageRunsItsLatch : Prop :=
  ∀ (s : State) (l : Latch) (i : Instr), l.instr = some i →
    (s.latW = some l → writebackStage s = exec i { s with stage := .writeback }) ∧
    (s.latM = some l → memoryStage s = exec i { s with stage := .memory, tapM := none }) ∧
    (s.latE = some l → executeStage s = exec i { s with stage := .execute, tapE := none }) ∧
    (s.latD = some l → decodeStage s = exec i { s with stage := .decode }) ∧
    (s.latW = none → writebackStage s = .next { s with stage := .writeback }) ∧
    (s.latM = none → memoryStage s = .next { s with stage := .memory, tapM := none }) ∧
    (s.latE = none → executeStage s = .next { s with stage := .execute, tapE := none }) ∧
    (s.latD = none → decodeStage s = .next { s with stage := .decode })

/-- R113 (decision D29): no step from a halted or faulted machine. -/
def Obligations.NoTickAfterStop : Prop :=
  ∀ s : State,
    (s.status = .halted → step s = .refused .tickAfterHalt) ∧
    (∀ f, s.status = .faulted f → step s = .refused (.tickAfterFatal f)) ∧
    (s.status = .running → ∀ r, step s ≠ .refused r)

/-- R39 (decision D23): every tick that completes is counted, one that ends in a fatal condition is
not. -/
def Obligations.CyclesCountCompletedTicks : Prop :=
  ∀ s t : State, step s = .next t →
    t.cycles = s.cycles + (if t.safe = true then 1 else 0)

/-- R40: the retire counter counts the instruction in `W`, of whatever kind, and nothing else. -/
def Obligations.RetiredCountsWritebacks : Prop :=
  ∀ s t : State, step s = .next t →
    t.retired = s.retired + (if s.latW = none then 0 else 1)

/-- R112: the tick answers halted exactly when Writeback processed a HALT, and then the machine is
halted unless a fatal condition ended the tick. -/
def Obligations.HaltedExactlyWhenHaltRetires : Prop :=
  ∀ s t : State, step s = .next t →
    (t.haltedNow = true ↔ instrIn s.latW = some .halt) ∧
    (t.safe = true → (t.status = .halted ↔ instrIn s.latW = some .halt))

/-- R43, R6: no step changes the image or the parameters. -/
def Obligations.ImageAndParametersNeverChange : Prop :=
  ∀ s t : State, step s = .next t → t.image = s.image ∧ t.params = s.params

/-- R126: outside a fatal condition, Execute, Memory and Writeback never hold an instruction. -/
def Obligations.IssuedInstructionsAdvance : Prop :=
  ∀ s t : State, step s = .next t → t.safe = true →
    (t.latW.map fun l => (l.pc, l.instr)) = (s.latM.map fun l => (l.pc, l.instr)) ∧
    (t.latM.map fun l => (l.pc, l.instr)) = (s.latE.map fun l => (l.pc, l.instr))

/-! ### Fetch -/

/-- R26, R62 (decisions D2, D3, D19): the addresses that have a record, and which record. -/
def Obligations.ImageAddresses : Prop :=
  ∀ (s : State) (a : Word) (i : Instr),
    s.imageAt a = some i ↔
      ∃ k : Nat, s.image[k]? = some i ∧ a.toInt = s.params.pcBase.toInt + 4 * (k : Int)

/-- R115 to R119 (decisions D6, D19): suppressed, held, stopped, or a fetch at the pc; `nofetch` where
the image has no entry there; HALT sets the halt-fetched flag. -/
def Obligations.FetchStageActions : Prop :=
  ∀ s : State,
    (s.fetchSuppress = true →
      fetchStage s = .next { s with stage := .fetch, fetchSuppress := false, latF := none }) ∧
    (s.fetchSuppress = false → s.latD ≠ none → fetchStage s = .next { s with stage := .fetch }) ∧
    (s.fetchSuppress = false → s.latD = none → s.haltFetched = true →
      fetchStage s = .next { s with stage := .fetch, latF := none }) ∧
    (s.fetchSuppress = false → s.latD = none → s.haltFetched = false →
      fetchStage s = .next { s with
        stage := .fetch
        latF := some { pc := s.pc, instr := s.imageAt s.pc }
        latD := some { pc := s.pc, instr := s.imageAt s.pc }
        haltFetched := decide (s.imageAt s.pc = some .halt)
        pc := wrap32 (s.pc.toInt + 4) })

/-- R118: behind a fetched HALT nothing enters `D`, and the flag is cleared only by the squash of that
HALT, with the flag not sticky. -/
def Obligations.NothingFetchedBehindHalt : Prop :=
  ∀ s t : State, step s = .next t → s.haltFetched = true →
    (t.latD = none ∨ t.latD = s.latD) ∧
    (t.haltFetched = false →
      instrIn s.latD = some .halt ∧ s.params.haltFlagSticky = false ∧ t.latD = none)

/-! ### Decode (41_decode_hazard_forwarding.md) -/

/-- R142: the Execute tap, then the Memory tap, then a stall if busy, then the register file. -/
def Obligations.SourceResolutionOrder : Prop :=
  ∀ (r : Reg) (s : State),
    (∀ v, s.tapE = some (r, v) → resolve r s = some v) ∧
    ((∀ v, s.tapE ≠ some (r, v)) → ∀ v, s.tapM = some (r, v) → resolve r s = some v) ∧
    ((∀ v, s.tapE ≠ some (r, v)) → (∀ v, s.tapM ≠ some (r, v)) →
      (s.isBusy r = true → resolve r s = none) ∧
      (s.isBusy r = false → resolve r s = some (s.reg r)))

/-- R143: a source that no tap supplies and that is busy stalls Decode; a stalled Decode writes
nothing (R146). -/
def Obligations.SourceStallChangesNothing : Prop :=
  ∀ (i : Instr) (s : State) (r : Reg), s.stage = .decode → r ∈ sources i →
    (∀ v, s.tapE ≠ some (r, v)) → (∀ v, s.tapM ≠ some (r, v)) → s.isBusy r = true →
    exec i s = .next s

/-- R144 (decision D24): a busy destination stalls Decode, whatever the sources; a stalled Decode
writes nothing. -/
def Obligations.DestinationStallChangesNothing : Prop :=
  ∀ (i : Instr) (s : State) (r : Reg), s.stage = .decode → r ∈ dests i → s.isBusy r = true →
    exec i s = .next s

/-- R147: with every source resolved and no destination busy, Decode marks each destination busy,
copies the resolved state into `E`, empties `D`, and changes nothing else. -/
def Obligations.SuccessfulDecodeIssues : Prop :=
  ∀ (i : Instr) (s : State) (l : Latch), i.legal = true → s.stage = .decode → s.latD = some l →
    (∀ r ∈ sources i, resolve r s ≠ none) → (∀ r ∈ dests i, s.isBusy r = false) →
    ∃ t, exec i s = .next t ∧
      t = { s with
        busy := t.busy
        latE := some { l with
          rs1Val := i.rs1Opt.bind fun r => resolve r s
          rs2Val := i.rs2Opt.bind fun r => resolve r s }
        latD := none } ∧
      ∀ r, t.isBusy r = decide (r ∈ dests i ∨ s.isBusy r = true)

/-- R153 (decision D19): a latch that found no image entry raises before any other action. -/
def Obligations.NofetchLatchRaises : Prop :=
  ∀ (s : State) (l : Latch), s.latD = some l → l.instr = none →
    decodeStage s = .next { s with
      stage := .decode, status := .faulted (.fetchOutOfImage l.pc) }

/-- R150: each tap is cleared at the start of its stage, so neither stage sees the value the last tick
left, an empty latch publishes nothing, and no step depends on the taps before it. Where Memory ends the
tick, Execute is not evaluated and its tap is what it was (R256, decision D20). -/
def Obligations.TapsAreTransient : Prop :=
  (∀ (s : State) (x y : Option (Reg × Word)),
    memoryStage (withTaps s s.tapE y) = memoryStage s ∧
    executeStage (withTaps s x s.tapM) = executeStage s ∧
    ∀ t, step s = .next t →
      ((∀ pc a, t.status ≠ .faulted (.memoryOutOfBounds pc a)) →
        step (withTaps s x y) = .next t) ∧
      (∀ pc a, t.status = .faulted (.memoryOutOfBounds pc a) →
        step (withTaps s x y) = .next (withTaps t x t.tapM))) ∧
  (∀ s t : State, step s = .next t →
    (s.latM = none → t.tapM = none) ∧
    (s.latE = none → (∀ pc a, t.status ≠ .faulted (.memoryOutOfBounds pc a)) → t.tapE = none))

/-! ### The instructions: every stage of every kind -/

/-- ADD, SUB, MUL (R175, R176, R177), with the flags of R173. -/
def Obligations.AddSubMulRules : Prop :=
  ∀ rd rs1 rs2 : Reg,
    ResultKind (.add rd rs1 rs2) [rs1, rs2] rd (fun a b => wrap32 (a.toInt + b.toInt)) true ∧
    ResultKind (.sub rd rs1 rs2) [rs1, rs2] rd (fun a b => wrap32 (a.toInt - b.toInt)) true ∧
    ResultKind (.mul rd rs1 rs2) [rs1, rs2] rd (fun a b => wrap32 (a.toInt * b.toInt)) true

/-- The three results are those of 32-bit modular arithmetic: overflow wraps, and the product is the low
32 bits (R171, decisions D1, D15). -/
def Obligations.OverflowWraps : Prop :=
  ∀ a b : Word, addWords a b = a + b ∧ subWords a b = a - b ∧ mulWords a b = a * b ∧
    effAddr a b = a + b ∧ postIncrement a = a + 4

/-- DIV (R178): the two fatal cases (R254, R257), in which nothing but the status changes and no flag is
written, and else the quotient rounded toward zero (R172). The rounding and the overflow case are the
spec's decision D16. -/
def Obligations.DivRule : Prop :=
  ∀ rd rs1 rs2 : Reg,
    let i : Instr := .div rd rs1 rs2
    Fetches i ∧ Decodes i [rs1, rs2] [rd] ∧
    (∀ (s : State) (l : Latch) (a b : Word), s.stage = .execute → s.latE = some l →
      l.rs1Val = some a → l.rs2Val = some b →
      (b.toInt = 0 → exec i s = .next { s with status := .faulted (.divideByZero l.pc) }) ∧
      (a.toInt = -2 ^ 31 → b.toInt = -1 →
        exec i s = .next { s with status := .faulted (.divideOverflow l.pc) }) ∧
      (b.toInt ≠ 0 → ¬ (a.toInt = -2 ^ 31 ∧ b.toInt = -1) →
        ∃ q : Word, q.toInt = a.toInt.tdiv b.toInt ∧
          exec i s = .next { s with
            zFlag := decide (q.toInt = 0)
            pFlag := decide (q.toInt > 0)
            tapE := some (rd, q)
            latM := some { l with result := some q }
            latE := none })) ∧
    PassesThrough i (fun l => some (rd, Latch.res l)) ∧ WritesBack i rd

/-- AND, OR, XOR (R179, R180, R181): bit by bit, and the flags stay (R174). -/
def Obligations.BitwiseRules : Prop :=
  ∀ rd rs1 rs2 : Reg,
    ResultKind (.and rd rs1 rs2) [rs1, rs2] rd (fun a b => a &&& b) false ∧
    ResultKind (.or rd rs1 rs2) [rs1, rs2] rd (fun a b => a ||| b) false ∧
    ResultKind (.xor rd rs1 rs2) [rs1, rs2] rd (fun a b => a ^^^ b) false

/-- ADDL, SUBL (R182, R183). -/
def Obligations.ImmediateArithmeticRules : Prop :=
  ∀ (rd rs1 : Reg) (imm : Word),
    ResultKind (.addl rd rs1 imm) [rs1] rd (fun a _ => wrap32 (a.toInt + imm.toInt)) true ∧
    ResultKind (.subl rd rs1 imm) [rs1] rd (fun a _ => wrap32 (a.toInt - imm.toInt)) true

/-- LOADCONST (R184; that it leaves the flags is decision D18). -/
def Obligations.LoadconstRule : Prop :=
  ∀ (rd : Reg) (imm : Word), ResultKind (.loadconst rd imm) [] rd (fun _ _ => imm) false

/-- CMP (R190; that P is the true signed comparison is decision D17). -/
def Obligations.CompareRule : Prop :=
  ∀ rs1 rs2 : Reg,
    let i : Instr := .cmp rs1 rs2
    Fetches i ∧ Decodes i [rs1, rs2] [] ∧
    (∀ (s : State) (l : Latch) (a b : Word), s.stage = .execute → s.latE = some l →
      l.rs1Val = some a → l.rs2Val = some b →
      exec i s = .next { s with
        zFlag := decide (a.toInt = b.toInt)
        pFlag := decide (a.toInt > b.toInt)
        tapE := none, latM := some l, latE := none }) ∧
    PassesThrough i (fun _ => none) ∧ WritesNothingBack i

/-- LOAD (R201). -/
def Obligations.LoadRule : Prop :=
  ∀ (rd rs1 : Reg) (imm : Word),
    let i : Instr := .load rd rs1 imm
    Fetches i ∧ Decodes i [rs1] [rd] ∧
    (∀ (s : State) (l : Latch) (a : Word), s.stage = .execute → s.latE = some l →
      l.rs1Val = some a →
      exec i s = .next { s with
        tapE := none
        latM := some { l with memAddr := some (wrap32 (a.toInt + imm.toInt)) }
        latE := none }) ∧
    ReadsWord i rd ∧ WritesBack i rd

/-- STORE (R202). -/
def Obligations.StoreRule : Prop :=
  ∀ (rs1 rs2 : Reg) (imm : Word),
    let i : Instr := .store rs1 rs2 imm
    Fetches i ∧ Decodes i [rs1, rs2] [] ∧
    (∀ (s : State) (l : Latch) (b : Word), s.stage = .execute → s.latE = some l →
      l.rs2Val = some b →
      exec i s = .next { s with
        tapE := none
        latM := some { l with memAddr := some (wrap32 (b.toInt + imm.toInt)) }
        latE := none }) ∧
    WritesWord i ∧ WritesNothingBack i

/-- LDI (R203): the address from the old base, the next base on the Execute tap, and at Writeback the
loaded word to `rd` and the next base to `rs1`. -/
def Obligations.LdiRule : Prop :=
  ∀ (rd rs1 : Reg) (imm : Word),
    let i : Instr := .ldi rd rs1 imm
    Fetches i ∧ Decodes i [rs1] [rd, rs1] ∧
    (∀ (s : State) (l : Latch) (a : Word), s.stage = .execute → s.latE = some l →
      l.rs1Val = some a →
      exec i s = .next { s with
        tapE := some (rs1, wrap32 (a.toInt + 4))
        latM := some { l with
          memAddr := some (wrap32 (a.toInt + imm.toInt)), bypass := some (wrap32 (a.toInt + 4)) }
        latE := none }) ∧
    ReadsWord i rd ∧
    (∀ (s : State) (l : Latch) (v nb : Word), s.stage = .writeback → s.latW = some l →
      l.result = some v → l.bypass = some nb →
      exec i s = .next { s with
        regs := (s.regs.set rd v).set rs1 nb
        busy := (s.busy.set rd false).set rs1 false
        retired := s.retired + 1
        latW := none })

/-- STI (R204): address and data from the old registers, the next base on the Execute tap and at
Writeback to `rs2`, and nothing on the Memory tap. -/
def Obligations.StiRule : Prop :=
  ∀ (rs1 rs2 : Reg) (imm : Word),
    let i : Instr := .sti rs1 rs2 imm
    Fetches i ∧ Decodes i [rs1, rs2] [rs2] ∧
    (∀ (s : State) (l : Latch) (b : Word), s.stage = .execute → s.latE = some l →
      l.rs2Val = some b →
      exec i s = .next { s with
        tapE := some (rs2, wrap32 (b.toInt + 4))
        latM := some { l with
          memAddr := some (wrap32 (b.toInt + imm.toInt)), bypass := some (wrap32 (b.toInt + 4)) }
        latE := none }) ∧
    WritesWord i ∧
    (∀ (s : State) (l : Latch) (nb : Word), s.stage = .writeback → s.latW = some l →
      l.bypass = some nb →
      exec i s = .next { s with
        regs := s.regs.set rs2 nb
        busy := s.busy.set rs2 false
        retired := s.retired + 1
        latW := none })

/-- BZ, BNZ, BP, BNP (R225 to R228): taken where the predicate holds, to the branch's own fetch-time
pc plus the displacement, with the squash and the suppression of R221 and R222; else nothing (R224).
That the squash of a HALT releases fetch unless the flag is sticky is R223 (decision D8). -/
def Obligations.ConditionalBranchRules : Prop :=
  ∀ imm : Word,
    BranchKind (.bz imm) imm (fun s => s.zFlag) ∧
    BranchKind (.bnz imm) imm (fun s => !s.zFlag) ∧
    BranchKind (.bp imm) imm (fun s => s.pFlag) ∧
    BranchKind (.bnp imm) imm (fun s => !s.pFlag)

/-- JUMP (R229): always taken, to the resolved source plus the displacement. That the squash of a HALT
releases fetch unless the flag is sticky is R223 (decision D8). -/
def Obligations.JumpRule : Prop :=
  ∀ (rs1 : Reg) (imm : Word),
    let i : Instr := .jump rs1 imm
    Fetches i ∧ Decodes i [rs1] [] ∧
    (∀ (s : State) (l : Latch) (a : Word), s.stage = .execute → s.latE = some l →
      l.rs1Val = some a →
      exec i s = .next {
        Redirected s (wrap32 (a.toInt + imm.toInt)) with
        tapE := none, latM := some l, latE := none }) ∧
    PassesThrough i (fun _ => none) ∧ WritesNothingBack i

/-- HALT (R240): fetching it sets the halt-fetched flag, and retiring it makes the tick answer
halted. -/
def Obligations.HaltStages : Prop :=
  (∀ s : State, s.stage = .fetch →
    exec .halt s = .next { s with
      latF := some { pc := s.pc, instr := some .halt }
      latD := some { pc := s.pc, instr := some .halt }
      haltFetched := true
      pc := wrap32 (s.pc.toInt + 4) }) ∧
  Decodes .halt [] [] ∧
  (∀ (s : State) (l : Latch), s.stage = .execute → s.latE = some l →
    exec .halt s = .next { s with tapE := none, latM := some l, latE := none }) ∧
  PassesThrough .halt (fun _ => none) ∧
  (∀ (s : State) (l : Latch), s.stage = .writeback → s.latW = some l →
    exec .halt s = .next { s with retired := s.retired + 1, latW := none, haltedNow := true })

/-- NOP (R241): it moves through every stage and changes nothing but the retire counter. -/
def Obligations.NopRule : Prop :=
  Fetches .nop ∧ Decodes .nop [] [] ∧
  (∀ (s : State) (l : Latch), s.stage = .execute → s.latE = some l →
    exec .nop s = .next { s with tapE := none, latM := some l, latE := none }) ∧
  PassesThrough .nop (fun _ => none) ∧ WritesNothingBack .nop

/-! ### Rules over all instructions -/

/-- Every kind has an action in every stage from every state: `exec` never faults and never
refuses. -/
def Obligations.EveryInstructionAnswersNext : Prop :=
  ∀ (i : Instr) (s : State), ∃ t, exec i s = .next t

/-- R23: only Writeback writes a register, only Decode and Writeback touch busy bits, and each only the
instruction's own destinations. -/
def Obligations.RegisterFileFrame : Prop :=
  ∀ (i : Instr) (s t : State), exec i s = .next t →
    (s.stage ≠ .writeback → t.regs = s.regs) ∧
    (s.stage ≠ .writeback → s.stage ≠ .decode → t.busy = s.busy) ∧
    (∀ r, r ∉ dests i → t.reg r = s.reg r ∧ t.isBusy r = s.isBusy r)

/-- R28 (decision D18): only Execute of the six arithmetic kinds and CMP writes a flag. -/
def Obligations.FlagsWrittenOnlyByArithmeticAndCompare : Prop :=
  ∀ (i : Instr) (s t : State), exec i s = .next t →
    (s.stage ≠ .execute ∨ i.opcode ∉ [1, 2, 3, 4, 8, 9, 20]) →
    t.zFlag = s.zFlag ∧ t.pFlag = s.pFlag

/-- R42, R66: only the Memory action of STORE and STI changes data memory, and only at the latch's word
index; every other word reads as before. -/
def Obligations.DataMemoryFrame : Prop :=
  ∀ (i : Instr) (s t : State), exec i s = .next t →
    ((s.stage ≠ .memory ∨ i.opcode ∉ [11, 13]) → t.mem = s.mem) ∧
    (s.stage = .memory → s.memOk = true → ∀ l, s.latM = some l →
      ∀ a : Word, a ≠ l.addr → t.word a = s.word a)

/-- R250: which instruction raises which fatal condition, in which stage, and under what condition on
its operands; nothing else raises. -/
def Obligations.FatalConditionsComeFrom : Prop :=
  ∀ (i : Instr) (s t : State) (f : Fatal), exec i s = .next t → s.status = .running →
    t.status = .faulted f →
    (s.stage = .memory ∧ i.opcode ∈ [10, 11, 12, 13] ∧ ∃ l, s.latM = some l ∧
      f = .memoryOutOfBounds l.pc l.addr ∧
      ¬ (0 ≤ l.addr.toInt ∧ l.addr.toInt < (s.params.dataMemWords : Int))) ∨
    (s.stage = .execute ∧ i.opcode = 4 ∧ ∃ l, s.latE = some l ∧
      ((f = .divideByZero l.pc ∧ l.rs2v.toInt = 0) ∨
       (f = .divideOverflow l.pc ∧ l.rs1v.toInt = -2 ^ 31 ∧ l.rs2v.toInt = -1))) ∨
    (s.stage = .decode ∧ i.legal = false ∧ ∃ l r, s.latD = some l ∧
      f = .invariantViolation l.pc r)

/-! ### Fatal conditions in a tick (60_exceptions.md) -/

/-- R256, R259 (decisions D20, D21): an out-of-bounds access in `M` ends the tick after Writeback,
before anything younger is evaluated, whatever Execute holds. -/
def Obligations.MemoryFaultLeaves : Prop :=
  ∀ (s : State) (l : Latch) (i : Instr) (ea : Word), s.status = .running →
    s.latM = some l → l.instr = some i → accessesMemory i = true → l.memAddr = some ea →
    ¬ (0 ≤ ea.toInt ∧ ea.toInt < (s.params.dataMemWords : Int)) →
    (∀ w, s.latW = some w → w.instr ≠ none) →
    ∃ u t, writebackStage { s with haltedNow := false } = .next u ∧ step s = .next t ∧
      t = { u with
        stage := .memory, tapM := none, status := .faulted (.memoryOutOfBounds l.pc ea) } ∧
      t.latW = none ∧ t.latM = some l ∧ t.latE = s.latE ∧ t.latD = s.latD ∧ t.latF = s.latF ∧
      t.pc = s.pc ∧ t.zFlag = s.zFlag ∧ t.pFlag = s.pFlag ∧ t.tapE = s.tapE ∧ t.mem = s.mem ∧
      t.cycles = s.cycles

/-- R256 (decision D20): a DIV that raises ends the tick after Memory; the instruction ahead of it waits
in `W`, the DIV stays in `E` with its destination busy and unwritten, and no flag is written. -/
def Obligations.DivideFaultLeaves : Prop :=
  ∀ (s : State) (l : Latch) (rd rs1 rs2 : Reg) (a b : Word) (f : Fatal), s.Inv →
    s.status = .running → s.latE = some l → l.instr = some (.div rd rs1 rs2) →
    l.rs1Val = some a → l.rs2Val = some b →
    ((b.toInt = 0 ∧ f = .divideByZero l.pc) ∨
      (a.toInt = -2 ^ 31 ∧ b.toInt = -1 ∧ f = .divideOverflow l.pc)) →
    (∀ m ea, s.latM = some m → m.memAddr = some ea → 0 ≤ ea.toInt ∧
      ea.toInt < (s.params.dataMemWords : Int)) →
    ∃ t, step s = .next t ∧ t.status = .faulted f ∧
      t.latE = some l ∧ t.latM = none ∧
      (t.latW.map fun l => (l.pc, l.instr)) = (s.latM.map fun l => (l.pc, l.instr)) ∧
      t.isBusy rd = true ∧ t.reg rd = s.reg rd ∧ t.zFlag = s.zFlag ∧ t.pFlag = s.pFlag ∧
      t.tapE = none ∧ t.latD = s.latD ∧ t.latF = s.latF ∧ t.pc = s.pc ∧ t.cycles = s.cycles

/-! ### Control transfer in a tick (44_control_transfer.md) -/

/-- R117, R221, R222: the tick in which a control transfer is taken leaves the target in the pc, `D` and
`F` empty, and the suppression clear again. The halt-fetched flag is released where the squash discards
a HALT and the flag is not sticky (R223, decision D8), and where it is clear the next tick fetches from
the target. -/
def Obligations.TakenTransferRedirectsFetch : Prop :=
  ∀ (s : State) (l : Latch) (i : Instr) (target : Word), s.Inv → s.status = .running →
    s.latE = some l → l.instr = some i →
    ((∃ rs1 imm v, i = .jump rs1 imm ∧ l.rs1Val = some v ∧
        target = wrap32 (v.toInt + imm.toInt)) ∨
      ∃ imm, target = wrap32 (l.pc.toInt + imm.toInt) ∧
        ((i = .bz imm ∧ s.zFlag = true) ∨ (i = .bnz imm ∧ s.zFlag = false) ∨
         (i = .bp imm ∧ s.pFlag = true) ∨ (i = .bnp imm ∧ s.pFlag = false))) →
    (∀ m ea, s.latM = some m → m.memAddr = some ea → 0 ≤ ea.toInt ∧
      ea.toInt < (s.params.dataMemWords : Int)) →
    ∃ t, step s = .next t ∧ t.safe = true ∧ t.pc = target ∧
      t.latD = none ∧ t.latF = none ∧ t.latE = none ∧ t.fetchSuppress = false ∧
      t.haltFetched = (Redirected s target).haltFetched ∧
      (t.haltFetched = false → ∃ u, step t = .next u ∧
        u.latD = some { pc := target, instr := s.imageAt target } ∧
        u.pc = wrap32 (target.toInt + 4))

/-! ### Invariants -/

/-- The invariant holds before the first tick, for every legal image and canonical memory (the model's
form, log 4), and at reset. -/
def Obligations.InvariantAtReset : Prop :=
  State.reset.Inv ∧
  ∀ p image regs mem, image.all Instr.legal = true → Memory.wf p.dataMemWords mem = true →
    (State.initial p image regs mem).Inv

/-- Every step keeps the invariant of the pipeline: canonical memory (the model's form, log 4), busy
bits exactly the destinations in flight, each held once (R22), the latches complete, nothing behind a
HALT. -/
def Obligations.EveryStepKeepsInvariant : Prop :=
  ∀ s t : State, s.Inv → step s = .next t → t.Inv

/-- Data memory keeps its canonical form in every step, whatever the pipeline holds. The form is the
model's (log 4, DEDUCED): the spec gives the words (R42, R66), not how they are listed. -/
def Obligations.MemoryStaysCanonical : Prop :=
  ∀ s t : State, s.memOk = true → step s = .next t → t.memOk = true

/-- R8: a running machine that meets the invariant always has a next state. -/
def Obligations.RunningMachineAlwaysTicks : Prop :=
  ∀ s : State, s.Inv → s.status = .running → ∃ t, step s = .next t

/-- R154, R258: no step raises `InvariantViolation`. -/
def Obligations.InvariantViolationNeverRaised : Prop :=
  ∀ s t : State, s.Inv → step s = .next t → ∀ pc r, t.status ≠ .faulted (.invariantViolation pc r)

/-- R240, R112: in the tick in which HALT retires nothing else is in flight, and no register is
busy. -/
def Obligations.HaltRetiresAlone : Prop :=
  ∀ s t : State, s.Inv → step s = .next t → t.status = .halted →
    t.latD = none ∧ t.latE = none ∧ t.latM = none ∧ t.latW = none ∧ ∀ r, t.isBusy r = false

/-- R155: Decode never stalls in three consecutive ticks. -/
def Obligations.StallsLastAtMostTwoTicks : Prop :=
  ∀ s t u : State, s.Inv → s.Stalls → step s = .next t → t.Stalls → step t = .next u → ¬ u.Stalls

/-! ### Headlines: what a program computes -/

/-- R151: a value Decode resolves is the one the register holds once every older instruction has
completed. -/
def Obligations.ResolvedValueIsFinal : Prop :=
  ∀ (s u t : State) (r : Reg) (v : Word), s.Inv → s.status = .running →
    frontHalf s = .next u → u.status = .running → resolve r u = some v →
    completeIssued u = .next t → t.status = .running → t.reg r = v

/-- One instruction alone in the pipeline has exactly the architectural effect of its rule, on every
state with nothing in flight: its five actions in turn give the registers, flags, data memory and pc of
`Arch.exec`, or raise the same fatal condition. -/
def Obligations.AloneInstructionHasItsEffect : Prop :=
  ∀ (i : Instr) (s : State), s.Idle → i.legal = true →
    ∃ t, passAlone i s = .next t ∧
      match Arch.exec s.params.dataMemWords i s.arch with
      | .inl a => t.arch = a ∧ t.status = .running ∧ t.retired = s.retired + 1 ∧
          (∀ r, t.isBusy r = false) ∧
          t.latD = none ∧ t.latE = none ∧ t.latM = none ∧ t.latW = none ∧
          t.haltedNow = (s.haltedNow || decide (i = .halt))
      | .inr f => t.status = .faulted f ∧ t.regs = s.regs ∧ t.zFlag = s.zFlag ∧
          t.pFlag = s.pFlag ∧ t.mem = s.mem

/-- R290: hazards never change values. In every tick of a machine that meets the invariant and raises
nothing, the architectural state with everything issued completed either stays, or becomes what the
next instruction of the program, executed alone on it, makes of it. -/
def Obligations.PipelineRefinesSequentialExecution : Prop :=
  ∀ (s t : State) (a : Arch), s.Inv → step s = .next t → t.safe = true → s.committed = some a →
    t.committed = some a ∨
    ∃ i, s.imageAt a.pc = some i ∧
      match Arch.exec s.params.dataMemWords i a with
      | .inl a' => t.committed = some a'
      | .inr _ => t.committed = none
end

