-- ==== Sys2Proof/Laws/State.lean ====
section
/-! SUPPORT. What each named update of the state does to each field: one lemma per field per update. -/

namespace Sys2Proof.Machine

/-! ### `setReg` -/

@[simp] theorem State.setReg_params (s : State) (r : Reg) (v : Word) :
    (s.setReg r v).params = s.params := rfl
@[simp] theorem State.setReg_image (s : State) (r : Reg) (v : Word) :
    (s.setReg r v).image = s.image := rfl
@[simp] theorem State.setReg_busy (s : State) (r : Reg) (v : Word) :
    (s.setReg r v).busy = s.busy := rfl
@[simp] theorem State.setReg_pc (s : State) (r : Reg) (v : Word) : (s.setReg r v).pc = s.pc := rfl
@[simp] theorem State.setReg_zFlag (s : State) (r : Reg) (v : Word) :
    (s.setReg r v).zFlag = s.zFlag := rfl
@[simp] theorem State.setReg_pFlag (s : State) (r : Reg) (v : Word) :
    (s.setReg r v).pFlag = s.pFlag := rfl
@[simp] theorem State.setReg_latF (s : State) (r : Reg) (v : Word) :
    (s.setReg r v).latF = s.latF := rfl
@[simp] theorem State.setReg_latD (s : State) (r : Reg) (v : Word) :
    (s.setReg r v).latD = s.latD := rfl
@[simp] theorem State.setReg_latE (s : State) (r : Reg) (v : Word) :
    (s.setReg r v).latE = s.latE := rfl
@[simp] theorem State.setReg_latM (s : State) (r : Reg) (v : Word) :
    (s.setReg r v).latM = s.latM := rfl
@[simp] theorem State.setReg_latW (s : State) (r : Reg) (v : Word) :
    (s.setReg r v).latW = s.latW := rfl
@[simp] theorem State.setReg_tapE (s : State) (r : Reg) (v : Word) :
    (s.setReg r v).tapE = s.tapE := rfl
@[simp] theorem State.setReg_tapM (s : State) (r : Reg) (v : Word) :
    (s.setReg r v).tapM = s.tapM := rfl
@[simp] theorem State.setReg_fetchSuppress (s : State) (r : Reg) (v : Word) :
    (s.setReg r v).fetchSuppress = s.fetchSuppress := rfl
@[simp] theorem State.setReg_haltFetched (s : State) (r : Reg) (v : Word) :
    (s.setReg r v).haltFetched = s.haltFetched := rfl
@[simp] theorem State.setReg_cycles (s : State) (r : Reg) (v : Word) :
    (s.setReg r v).cycles = s.cycles := rfl
@[simp] theorem State.setReg_retired (s : State) (r : Reg) (v : Word) :
    (s.setReg r v).retired = s.retired := rfl
@[simp] theorem State.setReg_status (s : State) (r : Reg) (v : Word) :
    (s.setReg r v).status = s.status := rfl
@[simp] theorem State.setReg_mem (s : State) (r : Reg) (v : Word) :
    (s.setReg r v).mem = s.mem := rfl
@[simp] theorem State.setReg_haltedNow (s : State) (r : Reg) (v : Word) :
    (s.setReg r v).haltedNow = s.haltedNow := rfl
@[simp] theorem State.setReg_stage (s : State) (r : Reg) (v : Word) :
    (s.setReg r v).stage = s.stage := rfl

/-! ### `setBusy` -/

@[simp] theorem State.setBusy_params (s : State) (r : Reg) (b : Bool) :
    (s.setBusy r b).params = s.params := rfl
@[simp] theorem State.setBusy_image (s : State) (r : Reg) (b : Bool) :
    (s.setBusy r b).image = s.image := rfl
@[simp] theorem State.setBusy_regs (s : State) (r : Reg) (b : Bool) :
    (s.setBusy r b).regs = s.regs := rfl
@[simp] theorem State.setBusy_pc (s : State) (r : Reg) (b : Bool) : (s.setBusy r b).pc = s.pc := rfl
@[simp] theorem State.setBusy_zFlag (s : State) (r : Reg) (b : Bool) :
    (s.setBusy r b).zFlag = s.zFlag := rfl
@[simp] theorem State.setBusy_pFlag (s : State) (r : Reg) (b : Bool) :
    (s.setBusy r b).pFlag = s.pFlag := rfl
@[simp] theorem State.setBusy_latF (s : State) (r : Reg) (b : Bool) :
    (s.setBusy r b).latF = s.latF := rfl
@[simp] theorem State.setBusy_latD (s : State) (r : Reg) (b : Bool) :
    (s.setBusy r b).latD = s.latD := rfl
@[simp] theorem State.setBusy_latE (s : State) (r : Reg) (b : Bool) :
    (s.setBusy r b).latE = s.latE := rfl
@[simp] theorem State.setBusy_latM (s : State) (r : Reg) (b : Bool) :
    (s.setBusy r b).latM = s.latM := rfl
@[simp] theorem State.setBusy_latW (s : State) (r : Reg) (b : Bool) :
    (s.setBusy r b).latW = s.latW := rfl
@[simp] theorem State.setBusy_tapE (s : State) (r : Reg) (b : Bool) :
    (s.setBusy r b).tapE = s.tapE := rfl
@[simp] theorem State.setBusy_tapM (s : State) (r : Reg) (b : Bool) :
    (s.setBusy r b).tapM = s.tapM := rfl
@[simp] theorem State.setBusy_fetchSuppress (s : State) (r : Reg) (b : Bool) :
    (s.setBusy r b).fetchSuppress = s.fetchSuppress := rfl
@[simp] theorem State.setBusy_haltFetched (s : State) (r : Reg) (b : Bool) :
    (s.setBusy r b).haltFetched = s.haltFetched := rfl
@[simp] theorem State.setBusy_cycles (s : State) (r : Reg) (b : Bool) :
    (s.setBusy r b).cycles = s.cycles := rfl
@[simp] theorem State.setBusy_retired (s : State) (r : Reg) (b : Bool) :
    (s.setBusy r b).retired = s.retired := rfl
@[simp] theorem State.setBusy_status (s : State) (r : Reg) (b : Bool) :
    (s.setBusy r b).status = s.status := rfl
@[simp] theorem State.setBusy_mem (s : State) (r : Reg) (b : Bool) :
    (s.setBusy r b).mem = s.mem := rfl
@[simp] theorem State.setBusy_haltedNow (s : State) (r : Reg) (b : Bool) :
    (s.setBusy r b).haltedNow = s.haltedNow := rfl
@[simp] theorem State.setBusy_stage (s : State) (r : Reg) (b : Bool) :
    (s.setBusy r b).stage = s.stage := rfl

/-! ### `fill` -/

@[simp] theorem fill_params (s : State) (i : Option Instr) : (fill i s).params = s.params := rfl
@[simp] theorem fill_image (s : State) (i : Option Instr) : (fill i s).image = s.image := rfl
@[simp] theorem fill_regs (s : State) (i : Option Instr) : (fill i s).regs = s.regs := rfl
@[simp] theorem fill_busy (s : State) (i : Option Instr) : (fill i s).busy = s.busy := rfl
@[simp] theorem fill_pc (s : State) (i : Option Instr) : (fill i s).pc = nextPc s.pc := rfl
@[simp] theorem fill_zFlag (s : State) (i : Option Instr) : (fill i s).zFlag = s.zFlag := rfl
@[simp] theorem fill_pFlag (s : State) (i : Option Instr) : (fill i s).pFlag = s.pFlag := rfl
@[simp] theorem fill_latF (s : State) (i : Option Instr) :
    (fill i s).latF = some { pc := s.pc, instr := i } := rfl
@[simp] theorem fill_latD (s : State) (i : Option Instr) :
    (fill i s).latD = some { pc := s.pc, instr := i } := rfl
@[simp] theorem fill_latE (s : State) (i : Option Instr) : (fill i s).latE = s.latE := rfl
@[simp] theorem fill_latM (s : State) (i : Option Instr) : (fill i s).latM = s.latM := rfl
@[simp] theorem fill_latW (s : State) (i : Option Instr) : (fill i s).latW = s.latW := rfl
@[simp] theorem fill_tapE (s : State) (i : Option Instr) : (fill i s).tapE = s.tapE := rfl
@[simp] theorem fill_tapM (s : State) (i : Option Instr) : (fill i s).tapM = s.tapM := rfl
@[simp] theorem fill_fetchSuppress (s : State) (i : Option Instr) :
    (fill i s).fetchSuppress = s.fetchSuppress := rfl
@[simp] theorem fill_haltFetched (s : State) (i : Option Instr) :
    (fill i s).haltFetched = s.haltFetched := rfl
@[simp] theorem fill_cycles (s : State) (i : Option Instr) : (fill i s).cycles = s.cycles := rfl
@[simp] theorem fill_retired (s : State) (i : Option Instr) : (fill i s).retired = s.retired := rfl
@[simp] theorem fill_status (s : State) (i : Option Instr) : (fill i s).status = s.status := rfl
@[simp] theorem fill_mem (s : State) (i : Option Instr) : (fill i s).mem = s.mem := rfl
@[simp] theorem fill_haltedNow (s : State) (i : Option Instr) :
    (fill i s).haltedNow = s.haltedNow := rfl
@[simp] theorem fill_stage (s : State) (i : Option Instr) : (fill i s).stage = s.stage := rfl

/-! ### `toExecute` -/

@[simp] theorem toExecute_params (s : State) (v1 v2 : Option Word) (l : Latch) :
    (toExecute v1 v2 l s).params = s.params := rfl
@[simp] theorem toExecute_image (s : State) (v1 v2 : Option Word) (l : Latch) :
    (toExecute v1 v2 l s).image = s.image := rfl
@[simp] theorem toExecute_regs (s : State) (v1 v2 : Option Word) (l : Latch) :
    (toExecute v1 v2 l s).regs = s.regs := rfl
@[simp] theorem toExecute_busy (s : State) (v1 v2 : Option Word) (l : Latch) :
    (toExecute v1 v2 l s).busy = s.busy := rfl
@[simp] theorem toExecute_pc (s : State) (v1 v2 : Option Word) (l : Latch) :
    (toExecute v1 v2 l s).pc = s.pc := rfl
@[simp] theorem toExecute_zFlag (s : State) (v1 v2 : Option Word) (l : Latch) :
    (toExecute v1 v2 l s).zFlag = s.zFlag := rfl
@[simp] theorem toExecute_pFlag (s : State) (v1 v2 : Option Word) (l : Latch) :
    (toExecute v1 v2 l s).pFlag = s.pFlag := rfl
@[simp] theorem toExecute_latF (s : State) (v1 v2 : Option Word) (l : Latch) :
    (toExecute v1 v2 l s).latF = s.latF := rfl
@[simp] theorem toExecute_latD (s : State) (v1 v2 : Option Word) (l : Latch) :
    (toExecute v1 v2 l s).latD = none := rfl
@[simp] theorem toExecute_latE (s : State) (v1 v2 : Option Word) (l : Latch) :
    (toExecute v1 v2 l s).latE = some { l with rs1Val := v1, rs2Val := v2 } := rfl
@[simp] theorem toExecute_latM (s : State) (v1 v2 : Option Word) (l : Latch) :
    (toExecute v1 v2 l s).latM = s.latM := rfl
@[simp] theorem toExecute_latW (s : State) (v1 v2 : Option Word) (l : Latch) :
    (toExecute v1 v2 l s).latW = s.latW := rfl
@[simp] theorem toExecute_tapE (s : State) (v1 v2 : Option Word) (l : Latch) :
    (toExecute v1 v2 l s).tapE = s.tapE := rfl
@[simp] theorem toExecute_tapM (s : State) (v1 v2 : Option Word) (l : Latch) :
    (toExecute v1 v2 l s).tapM = s.tapM := rfl
@[simp] theorem toExecute_fetchSuppress (s : State) (v1 v2 : Option Word) (l : Latch) :
    (toExecute v1 v2 l s).fetchSuppress = s.fetchSuppress := rfl
@[simp] theorem toExecute_haltFetched (s : State) (v1 v2 : Option Word) (l : Latch) :
    (toExecute v1 v2 l s).haltFetched = s.haltFetched := rfl
@[simp] theorem toExecute_cycles (s : State) (v1 v2 : Option Word) (l : Latch) :
    (toExecute v1 v2 l s).cycles = s.cycles := rfl
@[simp] theorem toExecute_retired (s : State) (v1 v2 : Option Word) (l : Latch) :
    (toExecute v1 v2 l s).retired = s.retired := rfl
@[simp] theorem toExecute_status (s : State) (v1 v2 : Option Word) (l : Latch) :
    (toExecute v1 v2 l s).status = s.status := rfl
@[simp] theorem toExecute_mem (s : State) (v1 v2 : Option Word) (l : Latch) :
    (toExecute v1 v2 l s).mem = s.mem := rfl
@[simp] theorem toExecute_haltedNow (s : State) (v1 v2 : Option Word) (l : Latch) :
    (toExecute v1 v2 l s).haltedNow = s.haltedNow := rfl
@[simp] theorem toExecute_stage (s : State) (v1 v2 : Option Word) (l : Latch) :
    (toExecute v1 v2 l s).stage = s.stage := rfl

/-! ### `toMemory` -/

@[simp] theorem toMemory_params (s : State) (l : Latch) (tap : Option (Reg × Word)) :
    (toMemory l tap s).params = s.params := rfl
@[simp] theorem toMemory_image (s : State) (l : Latch) (tap : Option (Reg × Word)) :
    (toMemory l tap s).image = s.image := rfl
@[simp] theorem toMemory_regs (s : State) (l : Latch) (tap : Option (Reg × Word)) :
    (toMemory l tap s).regs = s.regs := rfl
@[simp] theorem toMemory_busy (s : State) (l : Latch) (tap : Option (Reg × Word)) :
    (toMemory l tap s).busy = s.busy := rfl
@[simp] theorem toMemory_pc (s : State) (l : Latch) (tap : Option (Reg × Word)) :
    (toMemory l tap s).pc = s.pc := rfl
@[simp] theorem toMemory_zFlag (s : State) (l : Latch) (tap : Option (Reg × Word)) :
    (toMemory l tap s).zFlag = s.zFlag := rfl
@[simp] theorem toMemory_pFlag (s : State) (l : Latch) (tap : Option (Reg × Word)) :
    (toMemory l tap s).pFlag = s.pFlag := rfl
@[simp] theorem toMemory_latF (s : State) (l : Latch) (tap : Option (Reg × Word)) :
    (toMemory l tap s).latF = s.latF := rfl
@[simp] theorem toMemory_latD (s : State) (l : Latch) (tap : Option (Reg × Word)) :
    (toMemory l tap s).latD = s.latD := rfl
@[simp] theorem toMemory_latE (s : State) (l : Latch) (tap : Option (Reg × Word)) :
    (toMemory l tap s).latE = none := rfl
@[simp] theorem toMemory_latM (s : State) (l : Latch) (tap : Option (Reg × Word)) :
    (toMemory l tap s).latM = some l := rfl
@[simp] theorem toMemory_latW (s : State) (l : Latch) (tap : Option (Reg × Word)) :
    (toMemory l tap s).latW = s.latW := rfl
@[simp] theorem toMemory_tapE (s : State) (l : Latch) (tap : Option (Reg × Word)) :
    (toMemory l tap s).tapE = tap := rfl
@[simp] theorem toMemory_tapM (s : State) (l : Latch) (tap : Option (Reg × Word)) :
    (toMemory l tap s).tapM = s.tapM := rfl
@[simp] theorem toMemory_fetchSuppress (s : State) (l : Latch) (tap : Option (Reg × Word)) :
    (toMemory l tap s).fetchSuppress = s.fetchSuppress := rfl
@[simp] theorem toMemory_haltFetched (s : State) (l : Latch) (tap : Option (Reg × Word)) :
    (toMemory l tap s).haltFetched = s.haltFetched := rfl
@[simp] theorem toMemory_cycles (s : State) (l : Latch) (tap : Option (Reg × Word)) :
    (toMemory l tap s).cycles = s.cycles := rfl
@[simp] theorem toMemory_retired (s : State) (l : Latch) (tap : Option (Reg × Word)) :
    (toMemory l tap s).retired = s.retired := rfl
@[simp] theorem toMemory_status (s : State) (l : Latch) (tap : Option (Reg × Word)) :
    (toMemory l tap s).status = s.status := rfl
@[simp] theorem toMemory_mem (s : State) (l : Latch) (tap : Option (Reg × Word)) :
    (toMemory l tap s).mem = s.mem := rfl
@[simp] theorem toMemory_haltedNow (s : State) (l : Latch) (tap : Option (Reg × Word)) :
    (toMemory l tap s).haltedNow = s.haltedNow := rfl
@[simp] theorem toMemory_stage (s : State) (l : Latch) (tap : Option (Reg × Word)) :
    (toMemory l tap s).stage = s.stage := rfl

/-! ### `toWriteback` -/

@[simp] theorem toWriteback_params (s : State) (l : Latch) (tap : Option (Reg × Word)) :
    (toWriteback l tap s).params = s.params := rfl
@[simp] theorem toWriteback_image (s : State) (l : Latch) (tap : Option (Reg × Word)) :
    (toWriteback l tap s).image = s.image := rfl
@[simp] theorem toWriteback_regs (s : State) (l : Latch) (tap : Option (Reg × Word)) :
    (toWriteback l tap s).regs = s.regs := rfl
@[simp] theorem toWriteback_busy (s : State) (l : Latch) (tap : Option (Reg × Word)) :
    (toWriteback l tap s).busy = s.busy := rfl
@[simp] theorem toWriteback_pc (s : State) (l : Latch) (tap : Option (Reg × Word)) :
    (toWriteback l tap s).pc = s.pc := rfl
@[simp] theorem toWriteback_zFlag (s : State) (l : Latch) (tap : Option (Reg × Word)) :
    (toWriteback l tap s).zFlag = s.zFlag := rfl
@[simp] theorem toWriteback_pFlag (s : State) (l : Latch) (tap : Option (Reg × Word)) :
    (toWriteback l tap s).pFlag = s.pFlag := rfl
@[simp] theorem toWriteback_latF (s : State) (l : Latch) (tap : Option (Reg × Word)) :
    (toWriteback l tap s).latF = s.latF := rfl
@[simp] theorem toWriteback_latD (s : State) (l : Latch) (tap : Option (Reg × Word)) :
    (toWriteback l tap s).latD = s.latD := rfl
@[simp] theorem toWriteback_latE (s : State) (l : Latch) (tap : Option (Reg × Word)) :
    (toWriteback l tap s).latE = s.latE := rfl
@[simp] theorem toWriteback_latM (s : State) (l : Latch) (tap : Option (Reg × Word)) :
    (toWriteback l tap s).latM = none := rfl
@[simp] theorem toWriteback_latW (s : State) (l : Latch) (tap : Option (Reg × Word)) :
    (toWriteback l tap s).latW = some l := rfl
@[simp] theorem toWriteback_tapE (s : State) (l : Latch) (tap : Option (Reg × Word)) :
    (toWriteback l tap s).tapE = s.tapE := rfl
@[simp] theorem toWriteback_tapM (s : State) (l : Latch) (tap : Option (Reg × Word)) :
    (toWriteback l tap s).tapM = tap := rfl
@[simp] theorem toWriteback_fetchSuppress (s : State) (l : Latch) (tap : Option (Reg × Word)) :
    (toWriteback l tap s).fetchSuppress = s.fetchSuppress := rfl
@[simp] theorem toWriteback_haltFetched (s : State) (l : Latch) (tap : Option (Reg × Word)) :
    (toWriteback l tap s).haltFetched = s.haltFetched := rfl
@[simp] theorem toWriteback_cycles (s : State) (l : Latch) (tap : Option (Reg × Word)) :
    (toWriteback l tap s).cycles = s.cycles := rfl
@[simp] theorem toWriteback_retired (s : State) (l : Latch) (tap : Option (Reg × Word)) :
    (toWriteback l tap s).retired = s.retired := rfl
@[simp] theorem toWriteback_status (s : State) (l : Latch) (tap : Option (Reg × Word)) :
    (toWriteback l tap s).status = s.status := rfl
@[simp] theorem toWriteback_mem (s : State) (l : Latch) (tap : Option (Reg × Word)) :
    (toWriteback l tap s).mem = s.mem := rfl
@[simp] theorem toWriteback_haltedNow (s : State) (l : Latch) (tap : Option (Reg × Word)) :
    (toWriteback l tap s).haltedNow = s.haltedNow := rfl
@[simp] theorem toWriteback_stage (s : State) (l : Latch) (tap : Option (Reg × Word)) :
    (toWriteback l tap s).stage = s.stage := rfl

/-! ### `commit` -/

@[simp] theorem commit_params (s : State) (r : Reg) (v : Word) :
    (commit r v s).params = s.params := rfl
@[simp] theorem commit_image (s : State) (r : Reg) (v : Word) :
    (commit r v s).image = s.image := rfl
@[simp] theorem commit_pc (s : State) (r : Reg) (v : Word) : (commit r v s).pc = s.pc := rfl
@[simp] theorem commit_zFlag (s : State) (r : Reg) (v : Word) :
    (commit r v s).zFlag = s.zFlag := rfl
@[simp] theorem commit_pFlag (s : State) (r : Reg) (v : Word) :
    (commit r v s).pFlag = s.pFlag := rfl
@[simp] theorem commit_latF (s : State) (r : Reg) (v : Word) : (commit r v s).latF = s.latF := rfl
@[simp] theorem commit_latD (s : State) (r : Reg) (v : Word) : (commit r v s).latD = s.latD := rfl
@[simp] theorem commit_latE (s : State) (r : Reg) (v : Word) : (commit r v s).latE = s.latE := rfl
@[simp] theorem commit_latM (s : State) (r : Reg) (v : Word) : (commit r v s).latM = s.latM := rfl
@[simp] theorem commit_latW (s : State) (r : Reg) (v : Word) : (commit r v s).latW = s.latW := rfl
@[simp] theorem commit_tapE (s : State) (r : Reg) (v : Word) : (commit r v s).tapE = s.tapE := rfl
@[simp] theorem commit_tapM (s : State) (r : Reg) (v : Word) : (commit r v s).tapM = s.tapM := rfl
@[simp] theorem commit_fetchSuppress (s : State) (r : Reg) (v : Word) :
    (commit r v s).fetchSuppress = s.fetchSuppress := rfl
@[simp] theorem commit_haltFetched (s : State) (r : Reg) (v : Word) :
    (commit r v s).haltFetched = s.haltFetched := rfl
@[simp] theorem commit_cycles (s : State) (r : Reg) (v : Word) :
    (commit r v s).cycles = s.cycles := rfl
@[simp] theorem commit_retired (s : State) (r : Reg) (v : Word) :
    (commit r v s).retired = s.retired := rfl
@[simp] theorem commit_status (s : State) (r : Reg) (v : Word) :
    (commit r v s).status = s.status := rfl
@[simp] theorem commit_mem (s : State) (r : Reg) (v : Word) : (commit r v s).mem = s.mem := rfl
@[simp] theorem commit_haltedNow (s : State) (r : Reg) (v : Word) :
    (commit r v s).haltedNow = s.haltedNow := rfl
@[simp] theorem commit_stage (s : State) (r : Reg) (v : Word) :
    (commit r v s).stage = s.stage := rfl

/-! ### `retire` -/

@[simp] theorem retire_params (s : State) : (retire s).params = s.params := rfl
@[simp] theorem retire_image (s : State) : (retire s).image = s.image := rfl
@[simp] theorem retire_regs (s : State) : (retire s).regs = s.regs := rfl
@[simp] theorem retire_busy (s : State) : (retire s).busy = s.busy := rfl
@[simp] theorem retire_pc (s : State) : (retire s).pc = s.pc := rfl
@[simp] theorem retire_zFlag (s : State) : (retire s).zFlag = s.zFlag := rfl
@[simp] theorem retire_pFlag (s : State) : (retire s).pFlag = s.pFlag := rfl
@[simp] theorem retire_latF (s : State) : (retire s).latF = s.latF := rfl
@[simp] theorem retire_latD (s : State) : (retire s).latD = s.latD := rfl
@[simp] theorem retire_latE (s : State) : (retire s).latE = s.latE := rfl
@[simp] theorem retire_latM (s : State) : (retire s).latM = s.latM := rfl
@[simp] theorem retire_latW (s : State) : (retire s).latW = none := rfl
@[simp] theorem retire_tapE (s : State) : (retire s).tapE = s.tapE := rfl
@[simp] theorem retire_tapM (s : State) : (retire s).tapM = s.tapM := rfl
@[simp] theorem retire_fetchSuppress (s : State) : (retire s).fetchSuppress = s.fetchSuppress := rfl
@[simp] theorem retire_haltFetched (s : State) : (retire s).haltFetched = s.haltFetched := rfl
@[simp] theorem retire_cycles (s : State) : (retire s).cycles = s.cycles := rfl
@[simp] theorem retire_retired (s : State) : (retire s).retired = s.retired + 1 := rfl
@[simp] theorem retire_status (s : State) : (retire s).status = s.status := rfl
@[simp] theorem retire_mem (s : State) : (retire s).mem = s.mem := rfl
@[simp] theorem retire_haltedNow (s : State) : (retire s).haltedNow = s.haltedNow := rfl
@[simp] theorem retire_stage (s : State) : (retire s).stage = s.stage := rfl

/-! ### `setResultFlags` -/

@[simp] theorem setResultFlags_params (s : State) (v : Word) :
    (setResultFlags v s).params = s.params := rfl
@[simp] theorem setResultFlags_image (s : State) (v : Word) :
    (setResultFlags v s).image = s.image := rfl
@[simp] theorem setResultFlags_regs (s : State) (v : Word) :
    (setResultFlags v s).regs = s.regs := rfl
@[simp] theorem setResultFlags_busy (s : State) (v : Word) :
    (setResultFlags v s).busy = s.busy := rfl
@[simp] theorem setResultFlags_pc (s : State) (v : Word) : (setResultFlags v s).pc = s.pc := rfl
@[simp] theorem setResultFlags_zFlag (s : State) (v : Word) :
    (setResultFlags v s).zFlag = decide (v.toInt = 0) := rfl
@[simp] theorem setResultFlags_pFlag (s : State) (v : Word) :
    (setResultFlags v s).pFlag = decide (v.toInt > 0) := rfl
@[simp] theorem setResultFlags_latF (s : State) (v : Word) :
    (setResultFlags v s).latF = s.latF := rfl
@[simp] theorem setResultFlags_latD (s : State) (v : Word) :
    (setResultFlags v s).latD = s.latD := rfl
@[simp] theorem setResultFlags_latE (s : State) (v : Word) :
    (setResultFlags v s).latE = s.latE := rfl
@[simp] theorem setResultFlags_latM (s : State) (v : Word) :
    (setResultFlags v s).latM = s.latM := rfl
@[simp] theorem setResultFlags_latW (s : State) (v : Word) :
    (setResultFlags v s).latW = s.latW := rfl
@[simp] theorem setResultFlags_tapE (s : State) (v : Word) :
    (setResultFlags v s).tapE = s.tapE := rfl
@[simp] theorem setResultFlags_tapM (s : State) (v : Word) :
    (setResultFlags v s).tapM = s.tapM := rfl
@[simp] theorem setResultFlags_fetchSuppress (s : State) (v : Word) :
    (setResultFlags v s).fetchSuppress = s.fetchSuppress := rfl
@[simp] theorem setResultFlags_haltFetched (s : State) (v : Word) :
    (setResultFlags v s).haltFetched = s.haltFetched := rfl
@[simp] theorem setResultFlags_cycles (s : State) (v : Word) :
    (setResultFlags v s).cycles = s.cycles := rfl
@[simp] theorem setResultFlags_retired (s : State) (v : Word) :
    (setResultFlags v s).retired = s.retired := rfl
@[simp] theorem setResultFlags_status (s : State) (v : Word) :
    (setResultFlags v s).status = s.status := rfl
@[simp] theorem setResultFlags_mem (s : State) (v : Word) : (setResultFlags v s).mem = s.mem := rfl
@[simp] theorem setResultFlags_haltedNow (s : State) (v : Word) :
    (setResultFlags v s).haltedNow = s.haltedNow := rfl
@[simp] theorem setResultFlags_stage (s : State) (v : Word) :
    (setResultFlags v s).stage = s.stage := rfl

/-! ### `setCompareFlags` -/

@[simp] theorem setCompareFlags_params (s : State) (a b : Word) :
    (setCompareFlags a b s).params = s.params := rfl
@[simp] theorem setCompareFlags_image (s : State) (a b : Word) :
    (setCompareFlags a b s).image = s.image := rfl
@[simp] theorem setCompareFlags_regs (s : State) (a b : Word) :
    (setCompareFlags a b s).regs = s.regs := rfl
@[simp] theorem setCompareFlags_busy (s : State) (a b : Word) :
    (setCompareFlags a b s).busy = s.busy := rfl
@[simp] theorem setCompareFlags_pc (s : State) (a b : Word) :
    (setCompareFlags a b s).pc = s.pc := rfl
@[simp] theorem setCompareFlags_zFlag (s : State) (a b : Word) :
    (setCompareFlags a b s).zFlag = decide (a = b) := rfl
@[simp] theorem setCompareFlags_pFlag (s : State) (a b : Word) :
    (setCompareFlags a b s).pFlag = decide (a.toInt > b.toInt) := rfl
@[simp] theorem setCompareFlags_latF (s : State) (a b : Word) :
    (setCompareFlags a b s).latF = s.latF := rfl
@[simp] theorem setCompareFlags_latD (s : State) (a b : Word) :
    (setCompareFlags a b s).latD = s.latD := rfl
@[simp] theorem setCompareFlags_latE (s : State) (a b : Word) :
    (setCompareFlags a b s).latE = s.latE := rfl
@[simp] theorem setCompareFlags_latM (s : State) (a b : Word) :
    (setCompareFlags a b s).latM = s.latM := rfl
@[simp] theorem setCompareFlags_latW (s : State) (a b : Word) :
    (setCompareFlags a b s).latW = s.latW := rfl
@[simp] theorem setCompareFlags_tapE (s : State) (a b : Word) :
    (setCompareFlags a b s).tapE = s.tapE := rfl
@[simp] theorem setCompareFlags_tapM (s : State) (a b : Word) :
    (setCompareFlags a b s).tapM = s.tapM := rfl
@[simp] theorem setCompareFlags_fetchSuppress (s : State) (a b : Word) :
    (setCompareFlags a b s).fetchSuppress = s.fetchSuppress := rfl
@[simp] theorem setCompareFlags_haltFetched (s : State) (a b : Word) :
    (setCompareFlags a b s).haltFetched = s.haltFetched := rfl
@[simp] theorem setCompareFlags_cycles (s : State) (a b : Word) :
    (setCompareFlags a b s).cycles = s.cycles := rfl
@[simp] theorem setCompareFlags_retired (s : State) (a b : Word) :
    (setCompareFlags a b s).retired = s.retired := rfl
@[simp] theorem setCompareFlags_status (s : State) (a b : Word) :
    (setCompareFlags a b s).status = s.status := rfl
@[simp] theorem setCompareFlags_mem (s : State) (a b : Word) :
    (setCompareFlags a b s).mem = s.mem := rfl
@[simp] theorem setCompareFlags_haltedNow (s : State) (a b : Word) :
    (setCompareFlags a b s).haltedNow = s.haltedNow := rfl
@[simp] theorem setCompareFlags_stage (s : State) (a b : Word) :
    (setCompareFlags a b s).stage = s.stage := rfl

/-! ### `squash` -/

@[simp] theorem squash_params (s : State) :
    (squash s).params = s.params := by unfold squash; split <;> rfl
@[simp] theorem squash_image (s : State) :
    (squash s).image = s.image := by unfold squash; split <;> rfl
@[simp] theorem squash_regs (s : State) :
    (squash s).regs = s.regs := by unfold squash; split <;> rfl
@[simp] theorem squash_busy (s : State) :
    (squash s).busy = s.busy := by unfold squash; split <;> rfl
@[simp] theorem squash_pc (s : State) : (squash s).pc = s.pc := by unfold squash; split <;> rfl
@[simp] theorem squash_zFlag (s : State) :
    (squash s).zFlag = s.zFlag := by unfold squash; split <;> rfl
@[simp] theorem squash_pFlag (s : State) :
    (squash s).pFlag = s.pFlag := by unfold squash; split <;> rfl
@[simp] theorem squash_latF (s : State) :
    (squash s).latF = s.latF := by unfold squash; split <;> rfl
@[simp] theorem squash_latD (s : State) :
    (squash s).latD = none := by
  unfold squash; split <;> simp_all
@[simp] theorem squash_latE (s : State) :
    (squash s).latE = s.latE := by unfold squash; split <;> rfl
@[simp] theorem squash_latM (s : State) :
    (squash s).latM = s.latM := by unfold squash; split <;> rfl
@[simp] theorem squash_latW (s : State) :
    (squash s).latW = s.latW := by unfold squash; split <;> rfl
@[simp] theorem squash_tapE (s : State) :
    (squash s).tapE = s.tapE := by unfold squash; split <;> rfl
@[simp] theorem squash_tapM (s : State) :
    (squash s).tapM = s.tapM := by unfold squash; split <;> rfl
@[simp] theorem squash_fetchSuppress (s : State) :
    (squash s).fetchSuppress = s.fetchSuppress := by unfold squash; split <;> rfl
@[simp] theorem squash_cycles (s : State) :
    (squash s).cycles = s.cycles := by unfold squash; split <;> rfl
@[simp] theorem squash_retired (s : State) :
    (squash s).retired = s.retired := by unfold squash; split <;> rfl
@[simp] theorem squash_status (s : State) :
    (squash s).status = s.status := by unfold squash; split <;> rfl
@[simp] theorem squash_mem (s : State) : (squash s).mem = s.mem := by unfold squash; split <;> rfl
@[simp] theorem squash_haltedNow (s : State) :
    (squash s).haltedNow = s.haltedNow := by unfold squash; split <;> rfl
@[simp] theorem squash_stage (s : State) :
    (squash s).stage = s.stage := by unfold squash; split <;> rfl

/-! ### `taken` -/

@[simp] theorem taken_params (s : State) (t : Word) :
    (taken t s).params = s.params := by unfold taken; simp
@[simp] theorem taken_image (s : State) (t : Word) :
    (taken t s).image = s.image := by unfold taken; simp
@[simp] theorem taken_regs (s : State) (t : Word) :
    (taken t s).regs = s.regs := by unfold taken; simp
@[simp] theorem taken_busy (s : State) (t : Word) :
    (taken t s).busy = s.busy := by unfold taken; simp
@[simp] theorem taken_pc (s : State) (t : Word) : (taken t s).pc = t := by unfold taken; simp
@[simp] theorem taken_zFlag (s : State) (t : Word) :
    (taken t s).zFlag = s.zFlag := by unfold taken; simp
@[simp] theorem taken_pFlag (s : State) (t : Word) :
    (taken t s).pFlag = s.pFlag := by unfold taken; simp
@[simp] theorem taken_latF (s : State) (t : Word) :
    (taken t s).latF = s.latF := by unfold taken; simp
@[simp] theorem taken_latD (s : State) (t : Word) : (taken t s).latD = none := by unfold taken; simp
@[simp] theorem taken_latE (s : State) (t : Word) :
    (taken t s).latE = s.latE := by unfold taken; simp
@[simp] theorem taken_latM (s : State) (t : Word) :
    (taken t s).latM = s.latM := by unfold taken; simp
@[simp] theorem taken_latW (s : State) (t : Word) :
    (taken t s).latW = s.latW := by unfold taken; simp
@[simp] theorem taken_tapE (s : State) (t : Word) :
    (taken t s).tapE = s.tapE := by unfold taken; simp
@[simp] theorem taken_tapM (s : State) (t : Word) :
    (taken t s).tapM = s.tapM := by unfold taken; simp
@[simp] theorem taken_fetchSuppress (s : State) (t : Word) :
    (taken t s).fetchSuppress = true := by unfold taken; simp
@[simp] theorem taken_cycles (s : State) (t : Word) :
    (taken t s).cycles = s.cycles := by unfold taken; simp
@[simp] theorem taken_retired (s : State) (t : Word) :
    (taken t s).retired = s.retired := by unfold taken; simp
@[simp] theorem taken_status (s : State) (t : Word) :
    (taken t s).status = s.status := by unfold taken; simp
@[simp] theorem taken_mem (s : State) (t : Word) : (taken t s).mem = s.mem := by unfold taken; simp
@[simp] theorem taken_haltedNow (s : State) (t : Word) :
    (taken t s).haltedNow = s.haltedNow := by unfold taken; simp
@[simp] theorem taken_stage (s : State) (t : Word) :
    (taken t s).stage = s.stage := by unfold taken; simp

/-! ### `enter` -/

@[simp] theorem State.enter_params (s : State) (st : Stage) :
    (s.enter st).params = s.params := by cases st <;> rfl
@[simp] theorem State.enter_image (s : State) (st : Stage) :
    (s.enter st).image = s.image := by cases st <;> rfl
@[simp] theorem State.enter_regs (s : State) (st : Stage) :
    (s.enter st).regs = s.regs := by cases st <;> rfl
@[simp] theorem State.enter_busy (s : State) (st : Stage) :
    (s.enter st).busy = s.busy := by cases st <;> rfl
@[simp] theorem State.enter_pc (s : State) (st : Stage) :
    (s.enter st).pc = s.pc := by cases st <;> rfl
@[simp] theorem State.enter_zFlag (s : State) (st : Stage) :
    (s.enter st).zFlag = s.zFlag := by cases st <;> rfl
@[simp] theorem State.enter_pFlag (s : State) (st : Stage) :
    (s.enter st).pFlag = s.pFlag := by cases st <;> rfl
@[simp] theorem State.enter_latF (s : State) (st : Stage) :
    (s.enter st).latF = s.latF := by cases st <;> rfl
@[simp] theorem State.enter_latD (s : State) (st : Stage) :
    (s.enter st).latD = s.latD := by cases st <;> rfl
@[simp] theorem State.enter_latE (s : State) (st : Stage) :
    (s.enter st).latE = s.latE := by cases st <;> rfl
@[simp] theorem State.enter_latM (s : State) (st : Stage) :
    (s.enter st).latM = s.latM := by cases st <;> rfl
@[simp] theorem State.enter_latW (s : State) (st : Stage) :
    (s.enter st).latW = s.latW := by cases st <;> rfl
@[simp] theorem State.enter_fetchSuppress (s : State) (st : Stage) :
    (s.enter st).fetchSuppress = s.fetchSuppress := by cases st <;> rfl
@[simp] theorem State.enter_haltFetched (s : State) (st : Stage) :
    (s.enter st).haltFetched = s.haltFetched := by cases st <;> rfl
@[simp] theorem State.enter_cycles (s : State) (st : Stage) :
    (s.enter st).cycles = s.cycles := by cases st <;> rfl
@[simp] theorem State.enter_retired (s : State) (st : Stage) :
    (s.enter st).retired = s.retired := by cases st <;> rfl
@[simp] theorem State.enter_status (s : State) (st : Stage) :
    (s.enter st).status = s.status := by cases st <;> rfl
@[simp] theorem State.enter_mem (s : State) (st : Stage) :
    (s.enter st).mem = s.mem := by cases st <;> rfl
@[simp] theorem State.enter_haltedNow (s : State) (st : Stage) :
    (s.enter st).haltedNow = s.haltedNow := by cases st <;> rfl
@[simp] theorem State.enter_stage (s : State) (st : Stage) :
    (s.enter st).stage = st := by cases st <;> rfl

end Sys2Proof.Machine
end

