-- ==== Sys2Proof/Laws/Ops.lean ====
section
/-! SUPPORT. What the shared operations do: register and busy-bit reads after writes, the laws of data
memory, and one lemma per operation that says every way it can end. -/

namespace Sys2Proof.Machine

/-! ### Registers and busy bits -/

theorem State.reg_setReg (s : State) (r q : Reg) (v : Word) :
    (s.setReg r v).reg q = if r = q then v else s.reg q := by
  simp [State.reg, State.setReg, Vector.getElem_set, Fin.ext_iff]

theorem State.isBusy_setBusy (s : State) (r q : Reg) (b : Bool) :
    (s.setBusy r b).isBusy q = if r = q then b else s.isBusy q := by
  simp [State.isBusy, State.setBusy, Vector.getElem_set, Fin.ext_iff]

@[simp] theorem State.isBusy_setReg (s : State) (r q : Reg) (v : Word) :
    (s.setReg r v).isBusy q = s.isBusy q := rfl

@[simp] theorem State.reg_setBusy (s : State) (r q : Reg) (b : Bool) :
    (s.setBusy r b).reg q = s.reg q := rfl

theorem reg_commit (r q : Reg) (v : Word) (s : State) :
    (commit r v s).reg q = if r = q then v else s.reg q := State.reg_setReg s r q v

theorem isBusy_commit (r q : Reg) (v : Word) (s : State) :
    (commit r v s).isBusy q = if r = q then false else s.isBusy q :=
  State.isBusy_setBusy (s.setReg r v) r q false

/-- A write of one word of the register file seen through `regs`. -/
theorem commit_regs (r : Reg) (v : Word) (s : State) :
    (commit r v s).regs = s.regs.set r v := rfl

/-- Reads of the register file depend on `regs` only. -/
theorem State.reg_congr {s t : State} (h : t.regs = s.regs) (r : Reg) : t.reg r = s.reg r := by
  simp [State.reg, h]

/-- Reads of the busy bits depend on `busy` only. -/
theorem State.isBusy_congr {s t : State} (h : t.busy = s.busy) (r : Reg) :
    t.isBusy r = s.isBusy r := by
  simp [State.isBusy, h]

/-! ### Data memory -/

theorem Memory.read_entry (a b : Nat) (v : Word) (m : Memory)
    (hm : a = b → v = Config.unlistedWord → Memory.read m b = Config.unlistedWord) :
    Memory.read (Memory.entry a v m) b = if a = b then v else Memory.read m b := by
  unfold Memory.entry
  split <;> rename_i hv
  · split <;> rename_i hab
    · rw [hm hab hv, hv]
    · rfl
  · simp [Memory.read, eq_comm]

/-- An index below every listed one reads as unlisted. -/
theorem Memory.read_below (lo size : Nat) (m : Memory) (h : m.wfFrom lo size = true) (a : Nat)
    (ha : a < lo) : m.read a = Config.unlistedWord := by
  induction m generalizing lo with
  | nil => rfl
  | cons e m ih =>
    obtain ⟨k, v⟩ := e
    simp only [Memory.wfFrom, Bool.and_eq_true, decide_eq_true_eq] at h
    have hak : a ≠ k := by omega
    simp only [Memory.read, hak, if_false]
    exact ih (k + 1) h.2 (by omega)

/-- Reading after writing: the written index gives the word written, every other index what it gave. -/
theorem Memory.read_write (lo size : Nat) (m : Memory) (h : m.wfFrom lo size = true) (a b : Nat)
    (v : Word) : (m.write a v).read b = if a = b then v else m.read b := by
  induction m generalizing lo with
  | nil => exact Memory.read_entry a b v [] fun _ _ => rfl
  | cons e m ih =>
    obtain ⟨k, u⟩ := e
    have hkm := h
    simp only [Memory.wfFrom, Bool.and_eq_true, decide_eq_true_eq] at h
    unfold Memory.write
    split
    · rename_i hak
      refine Memory.read_entry a b v _ fun hab _ => ?_
      subst hab
      exact Memory.read_below k size _ (by simp [Memory.wfFrom, h]) a hak
    split
    · rename_i _ hak
      subst hak
      rw [Memory.read_entry a b v m fun hab _ => hab ▸ Memory.read_below (a + 1) size m h.2 a (by omega)]
      by_cases hab : a = b
      · simp [hab]
      · simp [hab, Memory.read, Ne.symm hab]
    · rename_i h1 h2
      simp only [Memory.read]
      split
      · rename_i hbk
        have : a ≠ b := by omega
        simp [this]
      · exact ih (k + 1) h.2

theorem Memory.wfFrom_mono (lo lo' size : Nat) (m : Memory) (h : m.wfFrom lo size = true)
    (hl : lo' ≤ lo) : m.wfFrom lo' size = true := by
  cases m with
  | nil => rfl
  | cons e m =>
    simp only [Memory.wfFrom, Bool.and_eq_true, decide_eq_true_eq] at h ⊢
    exact ⟨⟨⟨by omega, h.1.1.2⟩, h.1.2⟩, h.2⟩

theorem Memory.wfFrom_write (lo size : Nat) (m : Memory) (h : m.wfFrom lo size = true) (a : Nat)
    (v : Word) (hlo : lo ≤ a) (ha : a < size) : (m.write a v).wfFrom lo size = true := by
  induction m generalizing lo with
  | nil =>
    simp only [Memory.write, Memory.entry]
    split
    · rfl
    · rename_i hv
      simp [Memory.wfFrom, hlo, ha, hv]
  | cons e m ih =>
    obtain ⟨k, u⟩ := e
    have hfull := h
    simp only [Memory.wfFrom, Bool.and_eq_true, decide_eq_true_eq] at h
    obtain ⟨⟨⟨hk, hks⟩, hu⟩, hm⟩ := h
    unfold Memory.write
    split
    · rename_i hak
      unfold Memory.entry
      split
      · exact hfull
      · rename_i hv
        simp only [Memory.wfFrom, Bool.and_eq_true, decide_eq_true_eq]
        exact ⟨⟨⟨hlo, ha⟩, hv⟩, ⟨⟨by omega, hks⟩, hu⟩, hm⟩
    split
    · rename_i _ hak
      subst hak
      unfold Memory.entry
      split
      · exact Memory.wfFrom_mono (a + 1) lo size m hm (by omega)
      · rename_i hv
        simp only [Memory.wfFrom, Bool.and_eq_true, decide_eq_true_eq]
        exact ⟨⟨⟨hlo, ha⟩, hv⟩, hm⟩
    · rename_i h1 h2
      simp only [Memory.wfFrom, Bool.and_eq_true, decide_eq_true_eq]
      exact ⟨⟨⟨hk, hks⟩, hu⟩, ih (k + 1) hm (by omega)⟩

/-- A write inside the memory keeps the canonical form. -/
theorem Memory.wf_write (size : Nat) (m : Memory) (h : m.wf size = true) (a : Nat) (v : Word)
    (ha : a < size) : (m.write a v).wf size = true :=
  Memory.wfFrom_write 0 size m h a v (Nat.zero_le a) ha

/-- An index in bounds is the number of an existing word. -/
theorem State.inBounds_lt {s : State} {a : Word} (h : s.inBounds a = true) :
    a.toNat < s.params.dataMemWords ∧ (a.toNat : Int) = a.toInt := by
  simp only [State.inBounds, Bool.and_eq_true, decide_eq_true_eq] at h
  have := BitVec.toInt_eq_toNat_cond a
  split at this <;> omega

/-- Two in-bounds indices with the same number are the same index. -/
theorem word_index_inj {a b : Word} (h : a.toNat = b.toNat) : a = b := BitVec.eq_of_toNat_eq h

/-- Everything `MemRead` can answer (R75). -/
theorem State.memRead_cases (s : State) (a : Word) :
    (s.inBounds a = true ∧ s.memRead a = some (s.word a)) ∨
      (s.inBounds a = false ∧ s.memRead a = none) := by
  cases h : s.inBounds a <;> simp [State.memRead, h]

/-- Everything `MemWrite` can answer (R75). -/
theorem State.memWrite_cases (s : State) (a v : Word) :
    (s.inBounds a = true ∧ s.memWrite a v = some { s with mem := s.mem.write a.toNat v }) ∨
      (s.inBounds a = false ∧ s.memWrite a v = none) := by
  cases h : s.inBounds a <;> simp [State.memWrite, h]

/-- Everything Memory of LOAD and LDI can do (R121). -/
theorem loadWord_cases (rd : Reg) (l : Latch) (s : State) :
    (s.inBounds l.addr = true ∧ loadWord rd l s =
        .next (toWriteback { l with result := some (s.word l.addr) } (some (rd, s.word l.addr)) s)) ∨
      (s.inBounds l.addr = false ∧ loadWord rd l s = raise (.memoryOutOfBounds l.pc l.addr) s) := by
  rcases s.memRead_cases l.addr with ⟨h, e⟩ | ⟨h, e⟩ <;> simp [loadWord, h, e]

/-- Everything Memory of STORE and STI can do (R121). -/
theorem storeWord_cases (l : Latch) (s : State) :
    (s.inBounds l.addr = true ∧ storeWord l s =
        .next (toWriteback l none { s with mem := s.mem.write l.addr.toNat l.rs1v })) ∨
      (s.inBounds l.addr = false ∧ storeWord l s = raise (.memoryOutOfBounds l.pc l.addr) s) := by
  rcases s.memWrite_cases l.addr l.rs1v with ⟨h, e⟩ | ⟨h, e⟩ <;> simp [storeWord, h, e]

/-! ### Squash -/

/-- Everything `squash` can do to the halt-fetched flag (R222, R223). -/
theorem squash_haltFetched (s : State) :
    (squash s).haltFetched =
      match s.latD with
      | none => s.haltFetched
      | some l =>
        if l.instr = some .halt ∧ s.params.haltFlagSticky = false then false else s.haltFetched := by
  unfold squash
  split <;> simp_all

theorem taken_haltFetched (t : Word) (s : State) :
    (taken t s).haltFetched = (squash s).haltFetched := by
  simp [taken, squash_haltFetched]

/-- An empty `D` is left as it is. -/
theorem squash_of_empty {s : State} (h : s.latD = none) : squash s = s := by
  simp [squash, h]

/-! ### Latch fields -/

@[simp] theorem Latch.field_some (v : Word) (n : Nat) : Latch.field (some v) n = v := rfl

/-! ### Arithmetic -/

@[simp] theorem wrap32_toInt (a : Word) : wrap32 a.toInt = a := BitVec.ofInt_toInt

theorem addWords_eq (a b : Word) : addWords a b = a + b := by
  simp [addWords, wrap32, BitVec.ofInt_add]

theorem mulWords_eq (a b : Word) : mulWords a b = a * b := by
  simp [mulWords, wrap32, BitVec.ofInt_mul]

end Sys2Proof.Machine
end

