-- ==== Sys2Proof/Laws/Operands.lean ====
section
/-! SUPPORT. What Decode can do: resolving a source, claiming destinations, issuing or stalling
(spec/41_decode_hazard_forwarding.md R140 to R147). -/

namespace Sys2Proof.Machine

theorem tapValue_eq_some {tap : Option (Reg × Word)} {r : Reg} {v : Word} :
    tapValue tap r = some v ↔ tap = some (r, v) := by
  unfold tapValue
  split
  · rename_i t w
    by_cases h : t = r <;> simp [h]
  · simp

/-- Every way a source resolves (R142). -/
theorem resolve_cases {r : Reg} {s : State} {v : Word} (h : resolve r s = some v) :
    s.tapE = some (r, v) ∨ s.tapM = some (r, v) ∨ (s.isBusy r = false ∧ v = s.reg r) := by
  unfold resolve at h
  split at h
  · rename_i w hw
    exact .inl (tapValue_eq_some.mp (by rw [hw, ← h]))
  split at h
  · rename_i w hw
    exact .inr (.inl (tapValue_eq_some.mp (by rw [hw, ← h])))
  · split at h
    · cases h
    · rename_i hb
      exact .inr (.inr ⟨by simpa using hb, by simpa using h.symm⟩)

/-- A register that is not busy always resolves. -/
theorem resolve_of_not_busy {r : Reg} {s : State} (h : s.isBusy r = false) :
    (resolve r s).isSome = true := by
  unfold resolve
  split
  · rfl
  split
  · rfl
  · simp [h]

theorem resolveOpt_of_not_busy {r : Option Reg} {s : State} (h : ∀ q, s.isBusy q = false) :
    (resolveOpt r s).isSome = true := by
  cases r with
  | none => rfl
  | some r => simp [resolveOpt, resolve_of_not_busy (h r)]

/-- The state with each register of a list marked busy. -/
def markAll (ds : List Reg) (s : State) : State := ds.foldl (fun s d => s.setBusy d true) s

theorem markAll_isBusy (ds : List Reg) (s : State) (r : Reg) :
    (markAll ds s).isBusy r = (ds.contains r || s.isBusy r) := by
  induction ds generalizing s with
  | nil => simp [markAll]
  | cons d ds ih =>
    have : markAll (d :: ds) s = markAll ds (s.setBusy d true) := rfl
    rw [this, ih, State.isBusy_setBusy]
    by_cases h : d = r
    · simp [h]
    · simp [h, Ne.symm h]

/-- Claiming distinct registers that are free marks them all. -/
theorem claim_of_free (ds : List Reg) (s : State) (hd : ds.Nodup)
    (hf : ds.any s.isBusy = false) : claim ds s = (markAll ds s, none) := by
  induction ds generalizing s with
  | nil => rfl
  | cons d ds ih =>
    simp only [List.any_cons, Bool.or_eq_false_iff] at hf
    have hnd := List.nodup_cons.mp hd
    simp only [claim, hf.1, Bool.false_eq_true, if_false]
    refine ih _ hnd.2 ?_
    rw [List.any_eq_false] at hf ⊢
    intro x hx
    rw [State.isBusy_setBusy]
    have hne : d ≠ x := fun e => hnd.1 (e ▸ hx)
    simpa [hne] using hf.2 x hx

/-- The fields Decode's claims leave alone. -/
theorem markAll_eq (ds : List Reg) (s : State) :
    ∃ b, markAll ds s = { s with busy := b } := by
  induction ds generalizing s with
  | nil => exact ⟨s.busy, rfl⟩
  | cons d ds ih =>
    obtain ⟨b, h⟩ := ih (s.setBusy d true)
    exact ⟨b, h⟩

/-- Everything Decode can do with a kind whose destinations are distinct: stall and change nothing, or
claim the destinations and hand the latch to Execute (R143, R144, R146, R147). -/
theorem issue_cases (rs1 rs2 : Option Reg) (ds : List Reg) (l : Latch) (s : State)
    (hd : ds.Nodup) :
    (issue rs1 rs2 ds l s = .next s ∧
      (resolveOpt rs1 s = none ∨ resolveOpt rs2 s = none ∨ ds.any s.isBusy = true)) ∨
    ∃ v1 v2, resolveOpt rs1 s = some v1 ∧ resolveOpt rs2 s = some v2 ∧
      ds.any s.isBusy = false ∧ issue rs1 rs2 ds l s = .next (toExecute v1 v2 l (markAll ds s)) := by
  unfold issue
  split
  · rename_i v1 v2 h1 h2
    by_cases hf : ds.any s.isBusy = true
    · exact .inl ⟨by rw [if_pos hf], .inr (.inr hf)⟩
    · have hf' : ds.any s.isBusy = false := by simpa using hf
      refine .inr ⟨v1, v2, h1, h2, hf', ?_⟩
      rw [if_neg hf, claim_of_free ds s hd hf']
  · rename_i h
    refine .inl ⟨rfl, ?_⟩
    cases h1 : resolveOpt rs1 s with
    | none => exact .inl rfl
    | some v1 =>
      cases h2 : resolveOpt rs2 s with
      | none => exact .inr (.inl rfl)
      | some v2 => exact absurd h2 (h v1 v2 h1)

/-- A legal kind has distinct destinations (R151). -/
theorem dests_nodup {i : Instr} (h : i.legal = true) : (dests i).Nodup := by
  cases i <;> simp_all [dests, Instr.legal]

end Sys2Proof.Machine
end

