-- ==== Sys2Proof/Laws/Exec.lean ====
section
/-! SUPPORT. `exec` by stage: what every kind does in each of the five stages, said once. -/

namespace Sys2Proof.Machine

/-- The Execute action of each kind. -/
def executeAct : Instr → Latch → State → Res
  | .add rd _ _ => fun l => publishArith rd (addWords l.rs1v l.rs2v) l
  | .sub rd _ _ => fun l => publishArith rd (subWords l.rs1v l.rs2v) l
  | .mul rd _ _ => fun l => publishArith rd (mulWords l.rs1v l.rs2v) l
  | .div rd _ _ => divide rd
  | .and rd _ _ => fun l => publish rd (l.rs1v &&& l.rs2v) l
  | .or rd _ _ => fun l => publish rd (l.rs1v ||| l.rs2v) l
  | .xor rd _ _ => fun l => publish rd (l.rs1v ^^^ l.rs2v) l
  | .addl rd _ imm => fun l => publishArith rd (addWords l.rs1v imm) l
  | .subl rd _ imm => fun l => publishArith rd (subWords l.rs1v imm) l
  | .load _ _ imm => fun l => address l.rs1v imm l
  | .store _ _ imm => fun l => address l.rs2v imm l
  | .ldi _ rs1 imm => fun l => addressIndexed rs1 l.rs1v imm l
  | .sti _ rs2 imm => fun l => addressIndexed rs2 l.rs2v imm l
  | .loadconst rd imm => publish rd imm
  | .jump _ imm => jump imm
  | .bz imm => fun l s => branchIf s.zFlag imm l s
  | .bnz imm => fun l s => branchIf (!s.zFlag) imm l s
  | .bp imm => fun l s => branchIf s.pFlag imm l s
  | .bnp imm => fun l s => branchIf (!s.pFlag) imm l s
  | .cmp _ _ => compareOnly
  | .halt => noAction
  | .nop => noAction

/-- The Memory action of each kind. -/
def memoryAct : Instr → Latch → State → Res
  | .add rd _ _ | .sub rd _ _ | .mul rd _ _ | .div rd _ _ => passResult rd
  | .and rd _ _ | .or rd _ _ | .xor rd _ _ => passResult rd
  | .addl rd _ _ | .subl rd _ _ | .loadconst rd _ => passResult rd
  | .load rd _ _ | .ldi rd _ _ => loadWord rd
  | .store _ _ _ | .sti _ _ _ => storeWord
  | .jump _ _ | .bz _ | .bnz _ | .bp _ | .bnp _ => passNothing
  | .cmp _ _ | .halt | .nop => passNothing

/-- The Writeback action of each kind. -/
def writebackAct : Instr → Latch → State → Res
  | .add rd _ _ | .sub rd _ _ | .mul rd _ _ | .div rd _ _ => retireResult rd
  | .and rd _ _ | .or rd _ _ | .xor rd _ _ => retireResult rd
  | .addl rd _ _ | .subl rd _ _ | .loadconst rd _ | .load rd _ _ => retireResult rd
  | .ldi rd rs1 _ => retireIndexedLoad rd rs1
  | .sti _ rs2 _ => retireBase rs2
  | .store _ _ _ | .jump _ _ | .bz _ | .bnz _ | .bp _ | .bnp _ => fun _ => retireNothing
  | .cmp _ _ | .nop => fun _ => retireNothing
  | .halt => fun _ => retireHalt

theorem exec_fetch (i : Instr) (s : State) (h : s.stage = .fetch) :
    exec i s = if i = .halt then fetchedHalt i s else fetched i s := by
  cases i <;>
    simp [exec, h, execAdd, execSub, execMul, execDiv, execAnd, execOr, execXor, execAddl, execSubl,
      execLoad, execStore, execLdi, execSti, execLoadconst, execJump, execBz, execBnz, execBp,
      execBnp, execCmp, execHalt, execNop]

theorem exec_decode (i : Instr) (s : State) (h : s.stage = .decode) :
    exec i s = onLatch s.latD s (issue i.rs1Opt i.rs2Opt (dests i)) := by
  cases i <;>
    simp [exec, h, execAdd, execSub, execMul, execDiv, execAnd, execOr, execXor, execAddl, execSubl,
      execLoad, execStore, execLdi, execSti, execLoadconst, execJump, execBz, execBnz, execBp,
      execBnp, execCmp, execHalt, execNop, Instr.rs1Opt, Instr.rs2Opt, dests]

theorem exec_execute (i : Instr) (s : State) (h : s.stage = .execute) :
    exec i s = onLatch s.latE s (executeAct i) := by
  cases i <;> cases hE : s.latE <;>
    simp [exec, h, hE, onLatch, execAdd, execSub, execMul, execDiv, execAnd, execOr, execXor,
      execAddl, execSubl, execLoad, execStore, execLdi, execSti, execLoadconst, execJump, execBz,
      execBnz, execBp, execBnp, execCmp, execHalt, execNop, executeAct]

theorem exec_memory (i : Instr) (s : State) (h : s.stage = .memory) :
    exec i s = onLatch s.latM s (memoryAct i) := by
  cases i <;>
    simp [exec, h, execAdd, execSub, execMul, execDiv, execAnd, execOr, execXor, execAddl, execSubl,
      execLoad, execStore, execLdi, execSti, execLoadconst, execJump, execBz, execBnz, execBp,
      execBnp, execCmp, execHalt, execNop, memoryAct]

theorem exec_writeback (i : Instr) (s : State) (h : s.stage = .writeback) :
    exec i s = onLatch s.latW s (writebackAct i) := by
  cases i <;>
    simp [exec, h, execAdd, execSub, execMul, execDiv, execAnd, execOr, execXor, execAddl, execSubl,
      execLoad, execStore, execLdi, execSti, execLoadconst, execJump, execBz, execBnz, execBp,
      execBnp, execCmp, execHalt, execNop, writebackAct]

/-- Everything Execute can do with an instruction: hand its latch to `M`, or raise. -/
theorem executeAct_cases (i : Instr) (l : Latch) (s : State) :
    (∃ l' tap s', executeAct i l s = .next (toMemory l' tap s') ∧ l'.pc = l.pc ∧
      l'.instr = l.instr ∧ l'.rs1Val = l.rs1Val ∧ l'.rs2Val = l.rs2Val) ∨
    (∃ f, executeAct i l s = raise f s) := by
  cases i <;> simp only [executeAct]
  case div rd rs1 rs2 =>
    unfold divide
    split
    · exact .inr ⟨_, rfl⟩
    split
    · exact .inr ⟨_, rfl⟩
    · exact .inl ⟨_, _, _, rfl, rfl, rfl, rfl, rfl⟩
  all_goals exact .inl ⟨_, _, _, rfl, rfl, rfl, rfl, rfl⟩

/-- Everything Memory can do with an instruction: hand its latch to `W`, or raise. -/
theorem memoryAct_cases (i : Instr) (l : Latch) (s : State) :
    (∃ l' tap s', memoryAct i l s = .next (toWriteback l' tap s') ∧ l'.pc = l.pc ∧
      l'.instr = l.instr ∧ (s' = s ∨ s' = { s with mem := s.mem.write l.addr.toNat l.rs1v })) ∨
    (memoryAct i l s = raise (.memoryOutOfBounds l.pc l.addr) s ∧ s.inBounds l.addr = false) := by
  cases i <;> simp only [memoryAct]
  case load rd _ _ =>
    rcases loadWord_cases rd l s with ⟨_, e⟩ | ⟨h, e⟩
    · exact .inl ⟨_, _, _, e, rfl, rfl, .inl rfl⟩
    · exact .inr ⟨e, h⟩
  case ldi rd _ _ =>
    rcases loadWord_cases rd l s with ⟨_, e⟩ | ⟨h, e⟩
    · exact .inl ⟨_, _, _, e, rfl, rfl, .inl rfl⟩
    · exact .inr ⟨e, h⟩
  case store =>
    rcases storeWord_cases l s with ⟨_, e⟩ | ⟨h, e⟩
    · exact .inl ⟨_, _, _, e, rfl, rfl, .inr rfl⟩
    · exact .inr ⟨e, h⟩
  case sti =>
    rcases storeWord_cases l s with ⟨_, e⟩ | ⟨h, e⟩
    · exact .inl ⟨_, _, _, e, rfl, rfl, .inr rfl⟩
    · exact .inr ⟨e, h⟩
  all_goals exact .inl ⟨_, _, _, rfl, rfl, rfl, .inl rfl⟩

/-- Writeback always completes and empties `W`. -/
theorem writebackAct_next (i : Instr) (l : Latch) (s : State) :
    ∃ t, writebackAct i l s = .next t ∧ t.latW = none ∧ t.retired = s.retired + 1 := by
  cases i <;> exact ⟨_, rfl, rfl, rfl⟩

end Sys2Proof.Machine
end

