-- ==== Sys2Proof/Laws/Engine.lean ====
section
/-! SUPPORT. The engine: what a sequence of stages can answer, and every way a step can end
(spec/40_pipeline_engine.md R111, R113). -/

namespace Sys2Proof.Machine

/-- A sequence answers a next state in one of two ways: its first part ended the tick, or both parts
ran (R111). -/
theorem andThen_next {r : Res} {f : State → Res} {t : State} (h : andThen r f = .next t) :
    (r = .next t ∧ t.status ≠ .running) ∨ ∃ s, r = .next s ∧ s.status = .running ∧ f s = .next t := by
  unfold andThen at h
  split at h
  · rename_i s
    split at h
    · exact .inr ⟨s, rfl, ‹_›, h⟩
    · cases h; exact .inl ⟨rfl, ‹_›⟩
  · cases h
  · cases h

theorem andThen_of_running {s : State} {f : State → Res} (h : s.status = .running) :
    andThen (.next s) f = f s := by
  simp [andThen, h]

theorem andThen_of_stopped {s : State} {f : State → Res} (h : s.status ≠ .running) :
    andThen (.next s) f = .next s := by
  simp [andThen, h]

/-- Every way a step can end (R113). -/
theorem step_cases (s : State) :
    (s.status = .running ∧ step s = tick s) ∨
    (s.status = .halted ∧ step s = .refused .tickAfterHalt) ∨
    ∃ f, s.status = .faulted f ∧ step s = .refused (.tickAfterFatal f) := by
  unfold step
  cases s.status with
  | running => exact .inl ⟨rfl, rfl⟩
  | halted => exact .inr (.inl ⟨rfl, rfl⟩)
  | faulted f => exact .inr (.inr ⟨f, rfl, rfl⟩)

/-- A step that answers a next state is a tick of a running machine. -/
theorem step_next {s t : State} (h : step s = .next t) : s.status = .running ∧ tick s = .next t := by
  rcases step_cases s with ⟨hs, e⟩ | ⟨_, e⟩ | ⟨_, _, e⟩
  · exact ⟨hs, e ▸ h⟩
  · rw [e] at h; cases h
  · rw [e] at h; cases h

/-- Every way Fetch can act (R115). -/
theorem fetchStage_cases (s : State) :
    (s.fetchSuppress = true ∧
      fetchStage s = .next { s.enter .fetch with fetchSuppress := false, latF := none }) ∨
    (s.fetchSuppress = false ∧ s.latD ≠ none ∧ fetchStage s = .next (s.enter .fetch)) ∨
    (s.fetchSuppress = false ∧ s.latD = none ∧ s.haltFetched = true ∧
      fetchStage s = .next { s.enter .fetch with latF := none }) ∨
    (s.fetchSuppress = false ∧ s.latD = none ∧ s.haltFetched = false ∧
      fetchStage s = fetchAtPc (s.enter .fetch)) := by
  unfold fetchStage
  cases h1 : s.fetchSuppress <;> cases h2 : s.latD <;> cases h3 : s.haltFetched <;> simp

/-- A fetch always completes: the record at the pc, or `nofetch`, enters `F` and `D` (R115, R119). -/
theorem fetchAtPc_next (s : State) (h : s.stage = .fetch) :
    fetchAtPc s = .next (if s.imageAt s.pc = some .halt
      then { fill (s.imageAt s.pc) s with haltFetched := true } else fill (s.imageAt s.pc) s) := by
  unfold fetchAtPc
  split
  · rename_i i hi
    rw [exec_fetch i s h, hi]
    by_cases hh : i = .halt <;> simp [hh, fetched, fetchedHalt]
  · rename_i hi
    simp [hi]

end Sys2Proof.Machine
end

