-- ==== Sys2Proof/Laws/PerInstr.lean ====
section
/-! SUPPORT. A statement about every kind as syntax, one lemma per constructor. -/

namespace Sys2Proof.Laws.OperandShape

open Sys2Proof.Machine

/-- The sources of R141 are the record's source fields of R84, in order, every destination is a field of
the record, and the opcode is one of the 22 of R85. -/
def Statement (i : Instr) : Prop :=
  sources i = i.rs1Opt.toList ++ i.rs2Opt.toList ∧
  (∀ r ∈ dests i, some r = i.rdOpt ∨ r ∈ sources i) ∧
  1 ≤ i.opcode ∧ i.opcode ≤ 22

theorem add (rd rs1 rs2 : Reg) : Statement (.add rd rs1 rs2) := by
  simp [Statement, sources, dests, Instr.rs1Opt, Instr.rs2Opt, Instr.rdOpt, Instr.opcode]
theorem sub (rd rs1 rs2 : Reg) : Statement (.sub rd rs1 rs2) := by
  simp [Statement, sources, dests, Instr.rs1Opt, Instr.rs2Opt, Instr.rdOpt, Instr.opcode]
theorem mul (rd rs1 rs2 : Reg) : Statement (.mul rd rs1 rs2) := by
  simp [Statement, sources, dests, Instr.rs1Opt, Instr.rs2Opt, Instr.rdOpt, Instr.opcode]
theorem div (rd rs1 rs2 : Reg) : Statement (.div rd rs1 rs2) := by
  simp [Statement, sources, dests, Instr.rs1Opt, Instr.rs2Opt, Instr.rdOpt, Instr.opcode]
theorem and (rd rs1 rs2 : Reg) : Statement (.and rd rs1 rs2) := by
  simp [Statement, sources, dests, Instr.rs1Opt, Instr.rs2Opt, Instr.rdOpt, Instr.opcode]
theorem or (rd rs1 rs2 : Reg) : Statement (.or rd rs1 rs2) := by
  simp [Statement, sources, dests, Instr.rs1Opt, Instr.rs2Opt, Instr.rdOpt, Instr.opcode]
theorem xor (rd rs1 rs2 : Reg) : Statement (.xor rd rs1 rs2) := by
  simp [Statement, sources, dests, Instr.rs1Opt, Instr.rs2Opt, Instr.rdOpt, Instr.opcode]
theorem addl (rd rs1 : Reg) (imm : Word) : Statement (.addl rd rs1 imm) := by
  simp [Statement, sources, dests, Instr.rs1Opt, Instr.rs2Opt, Instr.rdOpt, Instr.opcode]
theorem subl (rd rs1 : Reg) (imm : Word) : Statement (.subl rd rs1 imm) := by
  simp [Statement, sources, dests, Instr.rs1Opt, Instr.rs2Opt, Instr.rdOpt, Instr.opcode]
theorem load (rd rs1 : Reg) (imm : Word) : Statement (.load rd rs1 imm) := by
  simp [Statement, sources, dests, Instr.rs1Opt, Instr.rs2Opt, Instr.rdOpt, Instr.opcode]
theorem store (rs1 rs2 : Reg) (imm : Word) : Statement (.store rs1 rs2 imm) := by
  simp [Statement, sources, dests, Instr.rs1Opt, Instr.rs2Opt, Instr.opcode]
theorem ldi (rd rs1 : Reg) (imm : Word) : Statement (.ldi rd rs1 imm) := by
  simp [Statement, sources, dests, Instr.rs1Opt, Instr.rs2Opt, Instr.rdOpt, Instr.opcode]
theorem sti (rs1 rs2 : Reg) (imm : Word) : Statement (.sti rs1 rs2 imm) := by
  simp [Statement, sources, dests, Instr.rs1Opt, Instr.rs2Opt, Instr.opcode]
theorem loadconst (rd : Reg) (imm : Word) : Statement (.loadconst rd imm) := by
  simp [Statement, sources, dests, Instr.rs1Opt, Instr.rs2Opt, Instr.rdOpt, Instr.opcode]
theorem jump (rs1 : Reg) (imm : Word) : Statement (.jump rs1 imm) := by
  simp [Statement, sources, dests, Instr.rs1Opt, Instr.rs2Opt, Instr.opcode]
theorem bz (imm : Word) : Statement (.bz imm) := by
  simp [Statement, sources, dests, Instr.rs1Opt, Instr.rs2Opt, Instr.opcode]
theorem bnz (imm : Word) : Statement (.bnz imm) := by
  simp [Statement, sources, dests, Instr.rs1Opt, Instr.rs2Opt, Instr.opcode]
theorem bp (imm : Word) : Statement (.bp imm) := by
  simp [Statement, sources, dests, Instr.rs1Opt, Instr.rs2Opt, Instr.opcode]
theorem bnp (imm : Word) : Statement (.bnp imm) := by
  simp [Statement, sources, dests, Instr.rs1Opt, Instr.rs2Opt, Instr.opcode]
theorem cmp (rs1 rs2 : Reg) : Statement (.cmp rs1 rs2) := by
  simp [Statement, sources, dests, Instr.rs1Opt, Instr.rs2Opt, Instr.opcode]
theorem halt : Statement .halt := by
  simp [Statement, sources, dests, Instr.rs1Opt, Instr.rs2Opt, Instr.opcode]
theorem nop : Statement .nop := by
  simp [Statement, sources, dests, Instr.rs1Opt, Instr.rs2Opt, Instr.opcode]

end Sys2Proof.Laws.OperandShape
end

