-- ==== Sys2Proof/Tests/Slice0.lean ====
section
/-! SUPPORT. Tests: ill-formed terms refused, one word of each kind written out from the encoding of
spec/30_encoding.md, single stages and single steps with the results the spec states, and, for each
statement with hypotheses, a concrete state that meets them. -/

namespace Sys2Proof.Tests

open Sys2Proof.Machine

/-! ### WellFormed refuses (30_encoding.md R83, R89) -/

theorem test_immediate_too_large : Instr.wellFormed (.addl 1 2 16384) = false := by decide
theorem test_immediate_too_small : Instr.wellFormed (.loadconst 1 (-16385)) = false := by decide
theorem test_immediate_bounds_fit :
    Instr.wellFormed (.bz 16383) = true ∧ Instr.wellFormed (.bz (-16384)) = true := by decide
theorem test_ldi_same_register : Instr.wellFormed (.ldi 1 1 0) = false := by decide
theorem test_ldi_same_register_not_legal : Instr.legal (.ldi 1 1 0) = false := by decide

/-! ### One word of each kind, field by field: opcode, rd, rs1, rs2, imm15 (R81, R85) -/

theorem test_decode_add : decode 0b00001_0001_0010_0011_000000000000000 = .ok (.add 1 2 3) := by decide
theorem test_decode_sub : decode 0b00010_1111_0000_1111_000000000000000 = .ok (.sub 15 0 15) := by decide
theorem test_decode_mul : decode 0b00011_0100_0101_0110_000000000000000 = .ok (.mul 4 5 6) := by decide
theorem test_decode_div : decode 0b00100_0111_1000_1001_000000000000000 = .ok (.div 7 8 9) := by decide
theorem test_decode_and : decode 0b00101_1010_1011_1100_000000000000000 = .ok (.and 10 11 12) := by decide
theorem test_decode_or : decode 0b00110_1101_1110_1111_000000000000000 = .ok (.or 13 14 15) := by decide
theorem test_decode_xor : decode 0b00111_0001_0010_0100_000000000000000 = .ok (.xor 1 2 4) := by decide
theorem test_decode_addl : decode 0b01000_0001_0010_0000_000000001100100 = .ok (.addl 1 2 100) := by decide
theorem test_decode_subl : decode 0b01001_0011_0100_0000_111111111111111 = .ok (.subl 3 4 (-1)) := by decide
theorem test_decode_load : decode 0b01010_0010_0001_0000_000000000000010 = .ok (.load 2 1 2) := by decide
theorem test_decode_store : decode 0b01011_0000_0001_0010_111111111111100 = .ok (.store 1 2 (-4)) := by decide
theorem test_decode_ldi : decode 0b01100_0010_0001_0000_000000000000101 = .ok (.ldi 2 1 5) := by decide
theorem test_decode_sti : decode 0b01101_0000_0001_0010_000000000000001 = .ok (.sti 1 2 1) := by decide
theorem test_decode_loadconst : decode 0b01110_0101_0000_0000_100000000000000 = .ok (.loadconst 5 (-16384)) := by decide
theorem test_decode_jump : decode 0b01111_0000_0110_0000_111111111111000 = .ok (.jump 6 (-8)) := by decide
theorem test_decode_bz : decode 0b10000_0000_0000_0000_000000000001000 = .ok (.bz 8) := by decide
theorem test_decode_bnz : decode 0b10001_0000_0000_0000_111111111110100 = .ok (.bnz (-12)) := by decide
theorem test_decode_bp : decode 0b10010_0000_0000_0000_000000000000100 = .ok (.bp 4) := by decide
theorem test_decode_bnp : decode 0b10011_0000_0000_0000_111111111111100 = .ok (.bnp (-4)) := by decide
theorem test_decode_cmp : decode 0b10100_0000_0001_0010_000000000000000 = .ok (.cmp 1 2) := by decide
theorem test_decode_halt : decode 0b10101_0000_0000_0000_000000000000000 = .ok .halt := by decide
theorem test_decode_nop : decode 0b10110_0000_0000_0000_000000000000000 = .ok .nop := by decide

/-- The malformed words of 95_test_vectors.md section 2.1. -/
theorem test_decode_malformed :
    decode 0x00000000 = .malformed (.reservedOpcode 0) ∧
    decode 0xB8000000 = .malformed (.reservedOpcode 23) ∧
    decode 0xFFFFFFFF = .malformed (.reservedOpcode 31) ∧
    decode 0xA8000001 = .malformed .unusedField ∧
    decode 0xB0800000 = .malformed .unusedField ∧
    decode 0x08000001 = .malformed .unusedField ∧
    decode 0x80080000 = .malformed .unusedField ∧
    decode 0x70080005 = .malformed .unusedField ∧
    decode 0xA0090001 = .malformed .unusedField ∧
    decode 0x58800000 = .malformed .unusedField ∧
    decode 0x78800000 = .malformed .unusedField ∧
    decode 0x60880000 = .malformed .ldiBaseIsDestination := by decide

theorem test_encode_words :
    encode (.add 1 2 3) = 0x08918000 ∧ encode (.store 1 2 (-4)) = 0x58097FFC ∧
    encode (.loadconst 5 16383) = 0x72803FFF ∧ encode (.jump 6 (-8)) = 0x78307FF8 := by decide

theorem test_table_word_longer_is_refused : decodeTableWord 64 (2 ^ 32 + 0xB0000000) = none := by decide

/-! ### Helpers: a machine in one stage, with one latch -/

/-- The outcome is a next state of which `p` holds. -/
def nextHas (r : Res) (p : State → Bool) : Bool :=
  match r with
  | .next s => p s
  | .fault _ => false
  | .refused _ => false

/-- An instruction fetched from 4000, its operands resolved to `a` and `b`. -/
def latch (i : Instr) (a b : Word) : Latch :=
  { pc := 4000, instr := some i, rs1Val := i.rs1Opt.map fun _ => a, rs2Val := i.rs2Opt.map fun _ => b }

/-- Reset, evaluating Execute with `i` in `E`. -/
def inE (i : Instr) (a b : Word) : State :=
  { State.reset with stage := .execute, latE := some (latch i a b) }

/-- Execute of `i` leaves this result for `M` and this flag pair. -/
def executes (i : Instr) (a b r : Word) (z p : Bool) : Bool :=
  nextHas (exec i (inE i a b)) fun t =>
    t.latM.map Latch.res == some r && t.zFlag == z && t.pFlag == p && t.latE.isNone

/-- Execute of `i` raises this fatal condition. -/
def raises (i : Instr) (a b : Word) (f : Fatal) : Bool :=
  nextHas (exec i (inE i a b)) fun t =>
    t.status == .faulted f && t.latE == some (latch i a b) && t.latM.isNone && t.tapE.isNone

/-! ### ALU rows of 95_test_vectors.md sections 2.2 and 2.3 -/

theorem test_add_wraps :
    executes (.add 3 1 2) 2147483647 1 (-2147483648) false false = true := by decide
theorem test_add_to_zero : executes (.add 3 1 2) 5 (-5) 0 true false = true := by decide
theorem test_sub_flags_follow_wrapped :
    executes (.sub 3 1 2) (-2147483648) 1 2147483647 false true = true := by decide
theorem test_sub_order : executes (.sub 3 1 2) 5 7 (-2) false false = true := by decide
theorem test_mul_low_word :
    executes (.mul 3 1 2) 123456789 987654321 (-67153019) false false = true := by decide
theorem test_mul_wraps_to_zero : executes (.mul 3 1 2) 65536 65536 0 true false = true := by decide
theorem test_div_toward_zero : executes (.div 3 1 2) (-7) 2 (-3) false false = true := by decide
theorem test_div_fatal :
    raises (.div 3 1 2) 5 0 (.divideByZero 4000) = true ∧
    raises (.div 3 1 2) (-2147483648) (-1) (.divideOverflow 4000) = true := by decide
theorem test_and_zero_keeps_z : executes (.and 3 1 2) 5 2 0 false false = true := by decide
theorem test_or : executes (.or 3 1 2) 0x0F00 0x00F0 4080 false false = true := by decide
theorem test_xor : executes (.xor 3 1 2) (-1) 0 (-1) false false = true := by decide
theorem test_addl_negative : executes (.addl 3 1 (-5)) 5 0 0 true false = true := by decide
theorem test_subl_negative_wraps :
    executes (.subl 3 1 (-1)) 2147483647 0 (-2147483648) false false = true := by decide
theorem test_loadconst_no_flags : executes (.loadconst 3 0) 0 0 0 false false = true := by decide
theorem test_cmp_is_no_difference :
    nextHas (exec (.cmp 1 2) (inE (.cmp 1 2) (-2147483648) 1))
      (fun t => !t.zFlag && !t.pFlag) = true := by decide
theorem test_cmp_greater :
    nextHas (exec (.cmp 1 2) (inE (.cmp 1 2) 9 7))
      (fun t => !t.zFlag && t.pFlag && t.tapE.isNone) = true := by decide

/-! ### Loads and stores (section 2.4) -/

theorem test_load_address :
    nextHas (exec (.load 2 1 2) (inE (.load 2 1 2) 10 0))
      (fun t => t.latM.map Latch.addr == some 12 && t.tapE.isNone) = true := by decide
theorem test_load_reads :
    nextHas (exec (.load 2 1 2) { State.reset with
        stage := .memory, mem := [(12, 99)]
        latM := some { latch (.load 2 1 2) 10 0 with memAddr := some 12 } })
      (fun t => t.latW.map Latch.res == some 99 && t.tapM == some (2, 99)) = true := by decide
theorem test_store_address :
    nextHas (exec (.store 1 2 (-4)) (inE (.store 1 2 (-4)) 77 20))
      (fun t => t.latM.map Latch.addr == some 16) = true := by decide
theorem test_store_writes :
    nextHas (exec (.store 1 2 (-4)) { State.reset with
        stage := .memory
        latM := some { latch (.store 1 2 (-4)) 77 20 with memAddr := some 16 } })
      (fun t => t.mem == [(16, 77)] && t.tapM.isNone) = true := by decide
theorem test_ldi_old_base :
    nextHas (exec (.ldi 2 1 5) (inE (.ldi 2 1 5) (-4) 0))
      (fun t => t.latM.map Latch.addr == some 1 && t.tapE == some (1, 0)) = true := by decide
theorem test_ldi_writes_two :
    nextHas (exec (.ldi 2 1 0) { State.reset with
        stage := .writeback
        latW := some { latch (.ldi 2 1 0) 8 0 with result := some 55, bypass := some 12 } })
      (fun t => t.reg 2 == 55 && t.reg 1 == 12 && t.retired == 1) = true := by decide
theorem test_sti_next_base :
    nextHas (exec (.sti 2 2 1) (inE (.sti 2 2 1) 8 8))
      (fun t => t.latM.map Latch.addr == some 9 && t.tapE == some (2, 12)) = true := by decide
theorem test_sti_writes_base_only :
    nextHas (exec (.sti 1 2 0) { State.reset with
        stage := .writeback
        latW := some { latch (.sti 1 2 0) 7 8 with bypass := some 12 } })
      (fun t => t.reg 2 == 12 && t.reg 1 == 0) = true := by decide
theorem test_highest_index_and_one_past :
    State.reset.inBounds 4095 = true ∧ State.reset.inBounds 4096 = false ∧
    State.reset.inBounds (-1) = false ∧ State.reset.inBounds 0 = true := by decide

/-! ### Control transfer (section 2.5) -/

/-- Execute of a branch from 4000 with these flags, a NOP in `D`: it leaves this pc. -/
def branches (i : Instr) (z p : Bool) (pc : Word) (squashes : Bool) : Bool :=
  nextHas (exec i { inE i 0 0 with
      zFlag := z, pFlag := p, pc := 4008, latD := some { pc := 4004, instr := some .nop } })
    fun t => t.pc == pc && t.latD.isNone == squashes && t.fetchSuppress == squashes

theorem test_bz : branches (.bz 8) true false 4008 true = true ∧
    branches (.bz 8) false true 4008 false = true := by decide
theorem test_bnz : branches (.bnz (-12)) false false 3988 true = true ∧
    branches (.bnz (-12)) true false 4008 false = true := by decide
theorem test_bp : branches (.bp 4) false true 4004 true = true ∧
    branches (.bp 4) true false 4008 false = true := by decide
theorem test_bnp : branches (.bnp (-4)) true false 3996 true = true ∧
    branches (.bnp (-4)) false true 4008 false = true := by decide
theorem test_jump_absolute :
    nextHas (exec (.jump 1 12) (inE (.jump 1 12) 4000 0))
      (fun t => t.pc == 4012 && t.fetchSuppress) = true := by decide
theorem test_squashed_halt_releases_fetch :
    let s := { State.reset with haltFetched := true, latD := some { pc := 4004, instr := some .halt } }
    (taken 4008 s).haltFetched = false ∧
    (taken 4008 { s with params := ⟨4000, 4096, true⟩ }).haltFetched = true := by decide

/-! ### HALT and NOP -/

theorem test_halt_stops_fetch :
    nextHas (exec .halt State.reset) (fun t => t.haltFetched && t.pc == 4004) = true := by decide
theorem test_halt_retires :
    nextHas (step { State.reset with
        haltFetched := true, latW := some (latch .halt 0 0) })
      (fun t => t.status == .halted && t.retired == 1 && t.cycles == 1) = true := by decide
theorem test_nop_retires :
    nextHas (exec .nop { State.reset with stage := .writeback, latW := some (latch .nop 0 0) })
      (fun t => t.retired == 1 && t.haltedNow == false && t.regs == State.reset.regs) = true := by decide

/-! ### Decode and the tick -/

/-- V1, tick 3: LOADCONST R1,#5 in `E` and ADD R2,R1,R1 in `D`: both sources come from the Execute tap. -/
def v1t3 : State :=
  { State.reset with
    image := [.loadconst 1 5, .add 2 1 1, .halt]
    pc := 4008
    busy := State.reset.busy.set 1 true
    latD := some { pc := 4004, instr := some (.add 2 1 1) }
    latE := some (latch (.loadconst 1 5) 0 0) }

theorem test_v1_forwards :
    nextHas (step v1t3) (fun t =>
      t.latE.map (·.rs1Val) == some (some 5) && t.isBusy 2 && t.pc == 4012 && t.haltFetched) = true := by
  decide

/-- V3, tick 3: LOADCONST R3,#1 in `E`, LOADCONST R3,#2 in `D`: a write-after-write stall. -/
def v3t3 : State :=
  { State.reset with
    image := [.loadconst 3 1, .loadconst 3 2, .halt]
    pc := 4008
    busy := State.reset.busy.set 3 true
    latD := some { pc := 4004, instr := some (.loadconst 3 2) }
    latE := some (latch (.loadconst 3 1) 0 0) }

theorem test_v3_stalls :
    nextHas (step v3t3) (fun t => t.latD == v3t3.latD && t.latE.isNone && t.pc == 4008) = true := by
  decide

/-- Past the last image entry Fetch marks the latch `nofetch`, and Decode raises (F4). -/
theorem test_fetch_past_end :
    nextHas (step State.reset) (fun t => t.latD == some { pc := 4000, instr := none }) = true := by decide
theorem test_nofetch_raises :
    nextHas (decodeStage { State.reset with latD := some { pc := 4008, instr := none } })
      (fun t => t.status == .faulted (.fetchOutOfImage 4008)) = true := by decide
theorem test_misaligned_pc_not_fetchable :
    let s := { State.reset with image := [.nop, .nop, .nop] }
    s.imageAt 4006 = none ∧ s.imageAt 4008 = some .nop ∧ s.imageAt 4012 = none ∧
    s.imageAt 3996 = none := by decide

/-! ### Hypotheses can be met: one theorem per statement that has any

Statements about every `step s = .next t` are met by `test_fetch_past_end` and the ticks above. -/

theorem test_meets_EncodeInvertsDecode :
    Instr.wellFormed (.ldi 2 1 (-16384)) = true ∧ decode 0x61080000 = .ok (.ldi 2 1 0) := by decide

theorem test_meets_LoadChecksEveryWord :
    (∀ w ∈ ([0x70800005, 0xA8000000] : List Word), ∃ i, decode w = .ok i) ∧
    ([0xA8000000, 0xB8000000] : List Word)[1]? = some 0xB8000000 ∧
    (∃ why, decode 0xB8000000 = .malformed why) ∧
    (∀ j (v : Word), j < 1 → ([0xA8000000, 0xB8000000] : List Word)[j]? = some v →
      ∃ i, decode v = .ok i) := by
  refine ⟨?_, rfl, ⟨.reservedOpcode 23, by decide⟩, ?_⟩
  · intro w hw
    simp only [List.mem_cons, List.not_mem_nil, or_false] at hw
    rcases hw with rfl | rfl
    · exact ⟨.loadconst 1 5, by decide⟩
    · exact ⟨.halt, by decide⟩
  · intro j v hj hv
    obtain rfl : j = 0 := by omega
    simp only [List.getElem?_cons_zero, Option.some.injEq] at hv
    exact ⟨.halt, by rw [← hv]; decide⟩

/-- Reset with one instruction at the pc. -/
def oneNop : State := { State.reset with image := [.nop] }

theorem test_meets_StepRunsDecodedInstruction :
    oneNop.Idle ∧ oneNop.imageAt oneNop.pc = some .nop ∧
    decodeTableWord 32 0xB0000000 = some .nop :=
  ⟨⟨rfl, rfl, rfl, rfl, rfl, by decide, rfl, rfl, rfl, rfl⟩, by decide, by decide⟩

/-- The very next step after `withFetchWord` fetches the instruction, also over a running pipeline and
with a pc that addresses no entry. -/
theorem test_withFetchWord_runs :
    nextHas (step (State.reset.withFetchWord 32 0x08918000))
      (fun t => t.latD == some { pc := 4000, instr := some (.add 1 2 3) }) = true ∧
    nextHas (step ({ v1t3 with pc := 4006, fetchSuppress := true }.withFetchWord 32 0xA8000000))
      (fun t => t.latD == some { pc := 4000, instr := some .halt }) = true ∧
    nextHas (step (v1t3.withFetchWord 32 0xB0000000))
      (fun t => t.latD == some { pc := 4008, instr := some .nop }) = true := by decide

theorem test_meets_StageRunsItsLatch :
    v1t3.latD = some { pc := 4004, instr := some (.add 2 1 1) } ∧
    v1t3.latE = some (latch (.loadconst 1 5) 0 0) ∧ v1t3.latM = none ∧ v1t3.latW = none ∧
    { v1t3 with latM := some (latch .nop 0 0) }.latM = some (latch .nop 0 0) ∧
    { v1t3 with latW := some (latch .nop 0 0) }.latW = some (latch .nop 0 0) := by decide

/-- Halted, faulted and running machines (NoTickAfterStop, TickEvaluatesStagesInOrder). -/
theorem test_meets_NoTickAfterStop :
    { State.reset with status := .halted }.status = .halted ∧
    { State.reset with status := .faulted (.divideByZero 4000) }.status = .faulted (.divideByZero 4000) ∧
    State.reset.status = .running := by decide

/-- The four ways Fetch acts (FetchStageActions). -/
theorem test_meets_FetchStageActions :
    { State.reset with fetchSuppress := true }.fetchSuppress = true ∧
    (v1t3.fetchSuppress = false ∧ v1t3.latD ≠ none) ∧
    (let s := { State.reset with haltFetched := true }
     s.fetchSuppress = false ∧ s.latD = none ∧ s.haltFetched = true) ∧
    (State.reset.fetchSuppress = false ∧ State.reset.latD = none ∧
      State.reset.haltFetched = false) := by decide

/-- BNZ #8 taken in `E` over a HALT in `D` (section 2.5, tick 3): the flag is set before the tick and
clear after it. -/
def squashHalt : State :=
  { State.reset with
    image := [.bnz 8, .halt, .jump 1 4]
    pc := 4008, haltFetched := true
    latD := some { pc := 4004, instr := some .halt }
    latE := some (latch (.bnz 8) 0 0) }

theorem test_meets_NothingFetchedBehindHalt :
    squashHalt.haltFetched = true ∧
    nextHas (step squashHalt) (fun t => !t.haltFetched && t.latD.isNone && t.pc == 4008) = true := by
  decide

/-- A register on each tap, one busy on neither, one free (SourceResolutionOrder). -/
theorem test_meets_SourceResolutionOrder :
    let s := { State.reset with tapE := some (1, 5), tapM := some (2, 7), busy := State.reset.busy.set 3 true }
    resolve 1 s = some 5 ∧ resolve 2 s = some 7 ∧ resolve 3 s = none ∧ resolve 4 s = some 0 ∧
    s.isBusy 3 = true ∧ s.isBusy 4 = false := by decide

/-- Load-use: the source is busy and on no tap (SourceStallChangesNothing), and the destination is busy
(DestinationStallChangesNothing). -/
theorem test_meets_stalls :
    let s := { State.reset with stage := .decode, busy := State.reset.busy.set 1 true }
    (1 : Reg) ∈ sources (.add 2 1 1) ∧ (1 : Reg) ∈ dests (.loadconst 1 5) ∧ s.isBusy 1 = true ∧
    s.tapE = none ∧ s.tapM = none ∧ s.stage = .decode := by decide

theorem test_meets_SuccessfulDecodeIssues :
    let s := { State.reset with
      stage := .decode, latD := some { pc := 4000, instr := some (.ldi 2 1 0) } }
    Instr.legal (.ldi 2 1 0) = true ∧ s.latD = some { pc := 4000, instr := some (.ldi 2 1 0) } ∧
    (∀ r ∈ sources (.ldi 2 1 0), resolve r s ≠ none) ∧
    (∀ r ∈ dests (.ldi 2 1 0), s.isBusy r = false) := by decide

theorem test_meets_NofetchLatchRaises :
    ∃ (s : State) (l : Latch), s.latD = some l ∧ l.instr = none :=
  ⟨{ State.reset with latD := some { pc := 4008, instr := none } }, _, rfl, rfl⟩

/-- Both taps active before the tick: nothing in `E` or `M`, then a CMP and a NOP there, which publish
nothing (R148, R149), then a STORE in `M` that raises before Execute is evaluated (R256)
(TapsAreTransient). -/
theorem test_meets_TapsAreTransient :
    let s := { State.reset with tapE := some (1, 5), tapM := some (2, 7) }
    nextHas (step s) (fun t => t.tapE.isNone && t.tapM.isNone && t.status == .running) = true ∧
    nextHas (step { s with latE := some (latch (.cmp 1 2) 0 0), latM := some (latch .nop 0 0) })
      (fun t => t.tapE.isNone && t.tapM.isNone && t.status == .running) = true ∧
    nextHas (step { s with latM := some { latch (.store 1 2 0) 0 4096 with memAddr := some 4096 } })
      (fun t => t.tapE == some (1, 5) && t.tapM.isNone &&
        t.status == .faulted (.memoryOutOfBounds 4000 4096)) = true := by decide

/-- A latch with the operands of a two-source kind, in `E`, and with everything computed, in `M` and in
`W` (the rules of the instructions: each asks for the stage, the latch and the fields it reads). -/
theorem test_meets_instruction_rules :
    let l : Latch := { latch (.sti 1 2 0) 7 8 with
      result := some 1, memAddr := some 8, bypass := some 12 }
    (inE (.add 3 1 2) 7 8).latE = some (latch (.add 3 1 2) 7 8) ∧
    (latch (.add 3 1 2) 7 8).rs1Val = some 7 ∧ (latch (.add 3 1 2) 7 8).rs2Val = some 8 ∧
    { State.reset with stage := .memory, latM := some l }.latM = some l ∧
    { State.reset with stage := .memory, latM := some l }.memOk = true ∧
    { State.reset with stage := .writeback, latW := some l }.latW = some l ∧
    l.result = some 1 ∧ l.memAddr = some 8 ∧ l.bypass = some 12 ∧ l.rs1Val = some 7 := by decide

/-- DIV's three cases have operands (DivRule), the boundary ones among them. -/
theorem test_meets_DivRule :
    ((0 : Word).toInt = 0) ∧ ((-2147483648 : Word).toInt = -2 ^ 31 ∧ (-1 : Word).toInt = -1) ∧
    ((-2147483648 : Word).toInt = -2 ^ 31 ∧ (1 : Word).toInt ≠ -1 ∧ (1 : Word).toInt ≠ 0) := by decide

/-- In bounds and out of bounds indices, at both ends (ReadsWord, WritesWord, MemoryFaultLeaves). -/
theorem test_meets_bounds :
    (0 ≤ (4095 : Word).toInt ∧ (4095 : Word).toInt < (State.reset.params.dataMemWords : Int)) ∧
    (0 ≤ (0 : Word).toInt) ∧
    ¬ (0 ≤ (4096 : Word).toInt ∧ (4096 : Word).toInt < (State.reset.params.dataMemWords : Int)) ∧
    ¬ (0 ≤ (-1 : Word).toInt) := by decide

/-- Each fatal condition is raised somewhere (FatalConditionsComeFrom). -/
theorem test_meets_FatalConditionsComeFrom :
    nextHas (exec (.load 2 1 0) { State.reset with
        stage := .memory, latM := some { latch (.load 2 1 0) 4096 0 with memAddr := some 4096 } })
      (fun t => t.status == .faulted (.memoryOutOfBounds 4000 4096)) = true ∧
    raises (.div 3 1 2) 5 0 (.divideByZero 4000) = true ∧
    nextHas (exec (.ldi 1 1 0) { State.reset with
        stage := .decode, latD := some { pc := 4000, instr := some (.ldi 1 1 0) } })
      (fun t => t.status == .faulted (.invariantViolation 4000 1)) = true := by decide

/-- F1, tick 6: a STORE one past the end in `M`, a retiring LOADCONST in `W`. -/
def f1t6 : State :=
  { State.reset with
    latM := some { latch (.store 1 2 0) 7 4096 with memAddr := some 4096 }
    latW := some { latch (.loadconst 2 4096) 0 0 with result := some 4096 } }

theorem test_meets_MemoryFaultLeaves :
    f1t6.status = .running ∧ accessesMemory (.store 1 2 0) = true ∧
    nextHas (step f1t6) (fun t =>
      t.status == .faulted (.memoryOutOfBounds 4000 4096) && t.reg 2 == 4096 && t.retired == 1 &&
      t.cycles == 0 && t.latM == f1t6.latM) = true := by decide

/-- F2, tick 5: a DIV by zero in `E`, LOADCONST R4,#3 ahead of it in `M`. -/
def f2t5 : State :=
  { State.reset with
    busy := (State.reset.busy.set 3 true).set 4 true
    latE := some (latch (.div 3 1 2) 7 0)
    latM := some { latch (.loadconst 4 3) 0 0 with result := some 3 } }

theorem f2t5_inv : f2t5.Inv :=
  ⟨by decide, by decide, by decide, by decide, by decide, by decide, by decide, by decide, by decide,
    by decide⟩

theorem test_meets_DivideFaultLeaves :
    f2t5.latE = some (latch (.div 3 1 2) 7 0) ∧ (latch (.div 3 1 2) 7 0).rs2Val = some 0 ∧
    nextHas (step f2t5) (fun t =>
      t.status == .faulted (.divideByZero 4000) && t.isBusy 4 && t.reg 4 == 0) = true := by decide

/-- A JUMP in `E` with an instruction behind it. -/
def jumping : State :=
  { State.reset with
    image := [.jump 1 12, .nop, .nop, .halt]
    pc := 4008
    latD := some { pc := 4004, instr := some .nop }
    latE := some (latch (.jump 1 12) 4000 0) }

theorem jumping_inv : jumping.Inv :=
  ⟨by decide, by decide, by decide, by decide, by decide, by decide, by decide, by decide, by decide,
    by decide⟩

theorem test_meets_TakenTransferRedirectsFetch :
    jumping.latE = some (latch (.jump 1 12) 4000 0) ∧ (latch (.jump 1 12) 4000 0).rs1Val = some 4000 ∧
    jumping.latM = none ∧
    nextHas (step jumping) (fun t => t.pc == 4012 && t.latD.isNone && t.latF.isNone) = true := by decide

/-- The squash of `squashHalt`: a taken BNZ, with the invariant. -/
theorem squashHalt_inv : squashHalt.Inv :=
  ⟨by decide, by decide, by decide, by decide, by decide, by decide, by decide, by decide, by decide,
    by decide⟩

/-- The other conditional branches are taken on some flags, the overflowing DIV is a case too, a sticky
flag stays set, and where it is clear the next tick fetches from the target. -/
theorem test_meets_taken_branches :
    nextHas (step { squashHalt with image := [.bz 8, .halt], latE := some (latch (.bz 8) 0 0), zFlag := true })
      (fun t => t.pc == 4008 && t.latD.isNone && t.latF.isNone) = true ∧
    nextHas (step { squashHalt with image := [.bnp 8, .halt], latE := some (latch (.bnp 8) 0 0) })
      (fun t => t.pc == 4008 && t.latD.isNone && t.latF.isNone) = true ∧
    nextHas (step { squashHalt with params := { Params.default with haltFlagSticky := true } })
      (fun t => t.pc == 4008 && t.latD.isNone && t.haltFetched) = true ∧
    nextHas (step squashHalt) (fun t => !t.haltFetched &&
      nextHas (step t) (fun u => u.latD == some { pc := 4008, instr := some (.jump 1 4) })) = true ∧
    nextHas (step { squashHalt with image := [.bp 8, .halt], latE := some (latch (.bp 8) 0 0), pFlag := true })
      (fun t => t.pc == 4008 && t.latD.isNone && t.latF.isNone) = true ∧
    nextHas (step { f2t5 with latE := some (latch (.div 3 1 2) (-2147483648) (-1)) })
      (fun t => t.status == .faulted (.divideOverflow 4000)) = true := by decide

/-- A legal image and a canonical memory (InvariantAtReset). -/
theorem test_meets_InvariantAtReset :
    [Instr.ldi 2 1 0, .halt].all Instr.legal = true ∧
    Memory.wf 4096 [(8, 55), (4095, 7)] = true ∧ Memory.wf 4096 [(8, 0)] = false ∧
    Memory.wf 4096 [(8, 1), (8, 2)] = false ∧ Memory.wf 4096 [(4096, 1)] = false := by decide

theorem v1t3_inv : v1t3.Inv :=
  ⟨by decide, by decide, by decide, by decide, by decide, by decide, by decide, by decide, by decide,
    by decide⟩

/-- A HALT about to retire, with the invariant (HaltRetiresAlone). -/
theorem test_meets_HaltRetiresAlone :
    let s := { State.reset with haltFetched := true, latW := some (latch .halt 0 0) }
    s.Inv ∧ nextHas (step s) (fun t => t.status == .halted) = true :=
  ⟨⟨by decide, by decide, by decide, by decide, by decide, by decide, by decide, by decide, by decide,
    by decide⟩, by decide⟩

theorem v3t3_inv : v3t3.Inv :=
  ⟨by decide, by decide, by decide, by decide, by decide, by decide, by decide, by decide, by decide,
    by decide⟩

/-- Two stalls in a row (StallsLastAtMostTwoTicks). -/
theorem test_meets_StallsLastAtMostTwoTicks :
    ∃ t u, v3t3.Stalls ∧ step v3t3 = .next t ∧ t.Stalls ∧ step t = .next u :=
  ⟨_, _, ⟨_, _, rfl, rfl, rfl, rfl, rfl⟩, rfl, ⟨_, _, rfl, rfl, rfl, rfl, rfl⟩, rfl⟩

/-- V1, tick 3 again: both headline statements about ticks have their hypotheses met, with a source on a
tap (ResolvedValueIsFinal) and an instruction issued (PipelineRefinesSequentialExecution). -/
theorem test_meets_headlines :
    v1t3.status = .running ∧ v1t3.committed.isSome = true ∧
    nextHas (frontHalf v1t3) (fun u => u.status == .running && resolve 1 u == some 5 &&
      nextHas (completeIssued u) (fun t => t.status == .running && t.reg 1 == 5)) = true ∧
    nextHas (step v1t3) (fun t => t.safe && t.committed.map (·.pc) == some 4008) = true := by decide

/-- An idle machine and a legal instruction, one that completes and one that raises
(AloneInstructionHasItsEffect). -/
theorem test_meets_AloneInstructionHasItsEffect :
    Instr.legal (.sti 1 2 0) = true ∧
    nextHas (passAlone (.sti 1 2 0) State.reset) (fun t => t.reg 2 == 4 && t.retired == 1) = true ∧
    nextHas (passAlone (.div 3 1 2) State.reset)
      (fun t => t.status == .faulted (.divideByZero 4000)) = true := by decide

end Sys2Proof.Tests
end

namespace Sys2Proof.Machine

/-! ### The retire counter (spec/10_state.md R40)

Writeback is the only stage that counts; the four stages after it keep the counter, whether they
complete or raise. -/

/-- Whatever next state `f` answers, also one that raises, has the field as before. -/
def Keeps {α : Type} (field : State → α) (f : State → Res) : Prop :=
  ∀ ⦃s t : State⦄, f s = .next t → field t = field s

/-- A stage that keeps a field adds nothing to what the stages before it have left there, whether it
runs or the tick has already ended. -/
theorem andThen_keeps {α : Type} {field : State → α} {r : Res} {f : State → Res} {t : State}
    (hf : Keeps field f) (h : andThen r f = .next t) :
    ∃ s, r = .next s ∧ field t = field s := by
  rcases andThen_next h with ⟨hr, _⟩ | ⟨s, hr, _, hs⟩
  · exact ⟨t, hr, rfl⟩
  · exact ⟨s, hr, hf hs⟩

/-- Both ways Execute, Memory and Writeback answer a next state (R114). -/
theorem runLatch_next {st : Stage} {o : Option Latch} {s t : State} (h : runLatch st o s = .next t) :
    (o = none ∧ t = s) ∨ ∃ l i, o = some l ∧ exec i s = .next t := by
  unfold runLatch at h
  split at h
  · cases h; exact .inl ⟨rfl, rfl⟩
  · split at h
    · exact .inr ⟨_, _, rfl, h⟩
    · cases h

/-! #### Writeback -/

theorem writebackStage_retired {s t : State} (h : writebackStage s = .next t) :
    t.retired = s.retired + (if s.latW = none then 0 else 1) := by
  rcases runLatch_next h with ⟨hw, rfl⟩ | ⟨l, i, hw, he⟩
  · simp [hw]
  · rw [exec_writeback i _ (s.enter_stage .writeback), State.enter_latW, hw] at he
    obtain ⟨u, hu, _, hret⟩ := writebackAct_next i l (s.enter .writeback)
    cases hu.symm.trans he
    simp [hw, hret]

/-! #### Memory and Execute -/

theorem memoryAct_keeps_retired (i : Instr) (l : Latch) : Keeps State.retired (memoryAct i l) := by
  intro s t h
  rcases memoryAct_cases i l s with ⟨l', tap, s', e, _, _, rfl | rfl⟩ | ⟨e, _⟩ <;>
    cases e.symm.trans h <;> rfl

theorem memoryStage_keeps_retired : Keeps State.retired memoryStage := by
  intro s t h
  rcases runLatch_next h with ⟨_, rfl⟩ | ⟨l, i, hm, he⟩
  · simp
  · rw [exec_memory i _ (s.enter_stage .memory), State.enter_latM, hm] at he
    exact (memoryAct_keeps_retired i l he).trans (s.enter_retired .memory)

theorem divide_keeps_retired (rd : Reg) (l : Latch) : Keeps State.retired (divide rd l) := by
  intro s t h
  unfold divide at h
  split at h
  · cases h; rfl
  split at h <;> cases h <;> rfl

theorem branchIf_next_retired {holds : Bool} {imm : Word} {l : Latch} {s t : State}
    (h : branchIf holds imm l s = .next t) : t.retired = s.retired := by
  cases h
  cases holds <;> simp

theorem executeAct_keeps_retired (i : Instr) (l : Latch) : Keeps State.retired (executeAct i l) := by
  intro s t h
  cases i
  case div rd _ _ => exact divide_keeps_retired rd l h
  case jump => cases h; simp
  case bz | bnz | bp | bnp => exact branchIf_next_retired h
  all_goals cases h; rfl

theorem executeStage_keeps_retired : Keeps State.retired executeStage := by
  intro s t h
  rcases runLatch_next h with ⟨_, rfl⟩ | ⟨l, i, hl, he⟩
  · simp
  · rw [exec_execute i _ (s.enter_stage .execute), State.enter_latE, hl] at he
    exact (executeAct_keeps_retired i l he).trans (s.enter_retired .execute)

/-! #### Decode and Fetch -/

theorem claim_retired (ds : List Reg) (s : State) : (claim ds s).1.retired = s.retired := by
  induction ds generalizing s with
  | nil => rfl
  | cons d ds ih =>
    unfold claim
    split
    · rfl
    · simp [ih]

/-- No condition on the destinations: a decode that raises keeps the counter too. -/
theorem issue_keeps_retired (rs1 rs2 : Option Reg) (ds : List Reg) (l : Latch) :
    Keeps State.retired (issue rs1 rs2 ds l) := by
  intro s t h
  have hclaim := claim_retired ds s
  unfold issue at h
  split at h
  · split at h
    · cases h; rfl
    split at h <;> rename_i hc <;> rw [hc] at hclaim <;> cases h <;> exact hclaim
  · cases h; rfl

theorem decodeStage_keeps_retired : Keeps State.retired decodeStage := by
  intro s t h
  unfold decodeStage at h
  cases hd : s.latD with
  | none => simp only [hd, onLatch] at h; cases h; simp
  | some l =>
    simp only [hd, onLatch, decodeLatch] at h
    split at h
    · rename_i i _
      rw [exec_decode i _ (s.enter_stage .decode), State.enter_latD, hd] at h
      exact (issue_keeps_retired _ _ _ l h).trans (s.enter_retired .decode)
    · cases h; rfl

theorem fetchStage_keeps_retired : Keeps State.retired fetchStage := by
  intro s t h
  rcases fetchStage_cases s with ⟨_, e⟩ | ⟨_, _, e⟩ | ⟨_, _, _, e⟩ | ⟨_, _, _, e⟩
  case inr.inr.inr =>
    rw [fetchAtPc_next _ (s.enter_stage .fetch)] at e
    cases e.symm.trans h
    split <;> simp
  all_goals cases e.symm.trans h; simp

/-! #### The tick -/

theorem endTick_keeps_retired : Keeps State.retired endTick := by
  intro s t h
  cases h; rfl

theorem tick_retired {s t : State} (h : tick s = .next t) :
    t.retired = s.retired + (if s.latW = none then 0 else 1) := by
  obtain ⟨f, hf, ht⟩ := andThen_keeps endTick_keeps_retired h
  obtain ⟨d, hd, hf'⟩ := andThen_keeps fetchStage_keeps_retired hf
  obtain ⟨e, he, hd'⟩ := andThen_keeps decodeStage_keeps_retired hd
  obtain ⟨m, hm, he'⟩ := andThen_keeps executeStage_keeps_retired he
  obtain ⟨w, hw, hm'⟩ := andThen_keeps memoryStage_keeps_retired hm
  calc t.retired = w.retired := by rw [ht, hf', hd', he', hm']
    _ = s.retired + (if s.latW = none then 0 else 1) :=
      writebackStage_retired (s := { s with haltedNow := false }) hw

/-- Settles O11: Writeback, the first stage of the tick, counts its latch, and no later stage touches
the counter, so a fatal condition that ends the tick later does not either. -/
theorem retiredCountsWritebacks : Obligations.RetiredCountsWritebacks := by
  unfold Obligations.RetiredCountsWritebacks
  intro s t h
  obtain ⟨_, ht⟩ := step_next h
  exact tick_retired ht

end Sys2Proof.Machine

namespace Sys2Proof.Machine

/-! ### Resolving a source (spec/41_decode_hazard_forwarding.md R142) -/

theorem tapValue_eq_none {tap : Option (Reg × Word)} {r : Reg} :
    tapValue tap r = none ↔ ∀ v, tap ≠ some (r, v) := by
  simp only [Option.eq_none_iff_forall_ne_some, ne_eq, tapValue_eq_some]

theorem resolve_of_tapE {r : Reg} {s : State} {v : Word} (h : s.tapE = some (r, v)) :
    resolve r s = some v := by
  simp [resolve, tapValue_eq_some.mpr h]

theorem resolve_of_tapM {r : Reg} {s : State} {v : Word} (hE : ∀ w, s.tapE ≠ some (r, w))
    (hM : s.tapM = some (r, v)) : resolve r s = some v := by
  simp [resolve, tapValue_eq_none.mpr hE, tapValue_eq_some.mpr hM]

theorem resolve_of_no_tap {r : Reg} {s : State} (hE : ∀ w, s.tapE ≠ some (r, w))
    (hM : ∀ w, s.tapM ≠ some (r, w)) :
    resolve r s = if s.isBusy r then none else some (s.reg r) := by
  simp [resolve, tapValue_eq_none.mpr hE, tapValue_eq_none.mpr hM]

/-- Settles O18: one lemma for each tap, and one for a register on neither. -/
theorem sourceResolutionOrder : Obligations.SourceResolutionOrder := by
  unfold Obligations.SourceResolutionOrder
  intro r s
  refine ⟨fun v => resolve_of_tapE, fun hE v => resolve_of_tapM hE, fun hE hM => ?_⟩
  rw [resolve_of_no_tap hE hM]
  exact ⟨fun hb => by simp [hb], fun hb => by simp [hb]⟩

/-! ### Stalling and issuing (R143, R146, R147) -/

/-- The sources of a kind are its record's two source fields (R84, R141). -/
theorem mem_sources {i : Instr} {r : Reg} :
    r ∈ sources i ↔ i.rs1Opt = some r ∨ i.rs2Opt = some r := by
  cases i <;> simp [sources, Instr.rs1Opt, Instr.rs2Opt, eq_comm]

theorem resolveOpt_of_stall {r : Reg} {s : State} (h : resolve r s = none) :
    resolveOpt (some r) s = none := by
  simp [resolveOpt, h]

theorem resolveOpt_of_resolved {o : Option Reg} {s : State}
    (h : ∀ r, o = some r → resolve r s ≠ none) :
    resolveOpt o s = some (o.bind fun r => resolve r s) := by
  cases o with
  | none => rfl
  | some r =>
    obtain ⟨v, hv⟩ := Option.ne_none_iff_exists'.mp (h r rfl)
    simp [resolveOpt, hv]

/-- A source that stalls is enough for a stall, whatever the destinations are. -/
theorem issue_of_source_stall {rs1 rs2 : Option Reg} {s : State} (ds : List Reg) (l : Latch)
    (h : resolveOpt rs1 s = none ∨ resolveOpt rs2 s = none) : issue rs1 rs2 ds l s = .next s := by
  unfold issue
  split
  · rename_i h1 h2
    simp [h1, h2] at h
  · rfl

/-- Settles O19: the busy source is one of the record's two source fields, and Decode stalls on
either. -/
theorem sourceStallChangesNothing : Obligations.SourceStallChangesNothing := by
  unfold Obligations.SourceStallChangesNothing
  intro i s r hst hr hE hM hb
  have hstall : resolveOpt (some r) s = none :=
    resolveOpt_of_stall (by simp [resolve_of_no_tap hE hM, hb])
  rw [exec_decode i s hst]
  cases s.latD with
  | none => rfl
  | some l =>
    refine issue_of_source_stall _ l ?_
    rcases mem_sources.mp hr with h | h <;> rw [h]
    · exact .inl hstall
    · exact .inr hstall

theorem issue_of_resolved {rs1 rs2 : Option Reg} {v1 v2 : Option Word} {ds : List Reg} {s : State}
    (l : Latch) (h1 : resolveOpt rs1 s = some v1) (h2 : resolveOpt rs2 s = some v2)
    (hd : ds.Nodup) (hf : ds.any s.isBusy = false) :
    issue rs1 rs2 ds l s = .next (toExecute v1 v2 l (markAll ds s)) := by
  simp [issue, h1, h2, hf, claim_of_free ds s hd hf]

/-- Settles O21: a legal record's destinations differ, so Decode claims them all; the claims touch
the busy bits only. -/
theorem successfulDecodeIssues : Obligations.SuccessfulDecodeIssues := by
  unfold Obligations.SuccessfulDecodeIssues
  intro i s l hlegal hst hl hsrc hfree
  have h1 := resolveOpt_of_resolved fun r (h : i.rs1Opt = some r) =>
    hsrc r (mem_sources.mpr (.inl h))
  have h2 := resolveOpt_of_resolved fun r (h : i.rs2Opt = some r) =>
    hsrc r (mem_sources.mpr (.inr h))
  have hf : (dests i).any s.isBusy = false := List.any_eq_false.mpr fun r hr => by simp [hfree r hr]
  have hissue : exec i s = .next (toExecute (i.rs1Opt.bind fun r => resolve r s)
      (i.rs2Opt.bind fun r => resolve r s) l (markAll (dests i) s)) := by
    rw [exec_decode i s hst, hl]
    exact issue_of_resolved l h1 h2 (dests_nodup hlegal) hf
  refine ⟨_, hissue, ?_, fun r => ?_⟩
  · obtain ⟨b, hb⟩ := markAll_eq (dests i) s
    rw [hb]
    rfl
  · rw [State.isBusy_congr (toExecute_busy _ _ _ l), markAll_isBusy]
    simp

/-! ### What each stage can change

The frame of a stage, whether it completes or raises: the fields it may touch are those of its
answer `t`, every other field is as before, and its status is as before or one of the stage's own
fatal conditions. -/

/-- Writeback (R127): no fatal condition. -/
structure WritebackFrame (s t : State) : Prop where
  fields : t = { s with
    regs := t.regs, busy := t.busy, latW := t.latW, retired := t.retired
    haltedNow := t.haltedNow, stage := t.stage }

/-- Memory (R121, R253). -/
structure MemoryFrame (s t : State) : Prop where
  fields : t = { s with
    latM := t.latM, latW := t.latW, tapM := t.tapM, mem := t.mem, status := t.status
    stage := t.stage }
  status : t.status = s.status ∨ ∃ pc a, t.status = .faulted (.memoryOutOfBounds pc a)

/-- Execute (R122, R178, R221). -/
structure ExecuteFrame (s t : State) : Prop where
  fields : t = { s with
    zFlag := t.zFlag, pFlag := t.pFlag, pc := t.pc, fetchSuppress := t.fetchSuppress
    haltFetched := t.haltFetched, latD := t.latD, latE := t.latE, latM := t.latM
    tapE := t.tapE, status := t.status, stage := t.stage }
  status : t.status = s.status ∨ ∃ pc, t.status = .faulted (.divideByZero pc) ∨
    t.status = .faulted (.divideOverflow pc)

/-- Decode (R140, R153). -/
structure DecodeFrame (s t : State) : Prop where
  fields : t = { s with
    busy := t.busy, latD := t.latD, latE := t.latE, status := t.status, stage := t.stage }
  status : t.status = s.status ∨ ∃ pc, t.status = .faulted (.fetchOutOfImage pc) ∨
    ∃ r, t.status = .faulted (.invariantViolation pc r)

/-- Fetch (R115): no fatal condition. -/
structure FetchFrame (s t : State) : Prop where
  fields : t = { s with
    latF := t.latF, latD := t.latD, pc := t.pc, fetchSuppress := t.fetchSuppress
    haltFetched := t.haltFetched, stage := t.stage }

theorem writebackAct_frame {i : Instr} {l : Latch} {s t : State}
    (h : writebackAct i l s = .next t) : WritebackFrame s t := by
  cases i <;> cases h <;> exact ⟨rfl⟩

theorem writebackStage_frame {s t : State} (h : writebackStage s = .next t) :
    WritebackFrame s t := by
  rcases runLatch_next h with ⟨_, rfl⟩ | ⟨l, i, hw, he⟩
  · exact ⟨rfl⟩
  · rw [exec_writeback i _ (s.enter_stage .writeback), State.enter_latW, hw] at he
    exact ⟨(writebackAct_frame he).fields⟩

theorem memoryAct_frame {i : Instr} {l : Latch} {s t : State} (h : memoryAct i l s = .next t) :
    MemoryFrame s t := by
  rcases memoryAct_cases i l s with ⟨l', tap, s', e, _, _, rfl | rfl⟩ | ⟨e, _⟩ <;>
    cases e.symm.trans h
  · exact ⟨rfl, .inl rfl⟩
  · exact ⟨rfl, .inl rfl⟩
  · exact ⟨rfl, .inr ⟨l.pc, l.addr, rfl⟩⟩

theorem memoryStage_frame {s t : State} (h : memoryStage s = .next t) : MemoryFrame s t := by
  rcases runLatch_next h with ⟨_, rfl⟩ | ⟨l, i, hm, he⟩
  · exact ⟨rfl, .inl rfl⟩
  · rw [exec_memory i _ (s.enter_stage .memory), State.enter_latM, hm] at he
    obtain ⟨hfields, hstatus⟩ := memoryAct_frame he
    exact ⟨hfields, hstatus⟩

theorem toMemory_taken_frame (l : Latch) (target : Word) (s : State) :
    ExecuteFrame s (toMemory l none (taken target s)) := by
  refine ⟨?_, .inl (taken_status s target)⟩
  cases hD : s.latD <;> simp [toMemory, taken, squash, hD]

theorem divide_frame {rd : Reg} {l : Latch} {s t : State} (h : divide rd l s = .next t) :
    ExecuteFrame s t := by
  unfold divide at h
  split at h
  · cases h; exact ⟨rfl, .inr ⟨l.pc, .inl rfl⟩⟩
  split at h
  · cases h; exact ⟨rfl, .inr ⟨l.pc, .inr rfl⟩⟩
  · cases h; exact ⟨rfl, .inl rfl⟩

theorem executeAct_frame {i : Instr} {l : Latch} {s t : State} (h : executeAct i l s = .next t) :
    ExecuteFrame s t := by
  cases i
  case div => exact divide_frame h
  case jump => cases h; exact toMemory_taken_frame ..
  case bz | bnz | bp | bnp =>
    cases h
    split
    · exact toMemory_taken_frame ..
    · exact ⟨rfl, .inl rfl⟩
  all_goals cases h; exact ⟨rfl, .inl rfl⟩

theorem executeStage_frame {s t : State} (h : executeStage s = .next t) : ExecuteFrame s t := by
  rcases runLatch_next h with ⟨_, rfl⟩ | ⟨l, i, hl, he⟩
  · exact ⟨rfl, .inl rfl⟩
  · rw [exec_execute i _ (s.enter_stage .execute), State.enter_latE, hl] at he
    obtain ⟨hfields, hstatus⟩ := executeAct_frame he
    exact ⟨hfields, hstatus⟩

theorem claim_frame {ds : List Reg} {s s' : State} {o : Option Reg} (h : claim ds s = (s', o)) :
    ∃ b, s' = { s with busy := b } := by
  induction ds generalizing s with
  | nil => cases h; exact ⟨_, rfl⟩
  | cons d ds ih =>
    unfold claim at h
    split at h
    · cases h; exact ⟨_, rfl⟩
    · obtain ⟨b, rfl⟩ := ih h
      exact ⟨b, rfl⟩

/-- No condition on the destinations: also the frame of a decode that raises. -/
theorem issue_frame {rs1 rs2 : Option Reg} {ds : List Reg} {l : Latch} {s t : State}
    (h : issue rs1 rs2 ds l s = .next t) : DecodeFrame s t := by
  unfold issue at h
  split at h
  · split at h
    · cases h; exact ⟨rfl, .inl rfl⟩
    split at h <;> rename_i hc <;> obtain ⟨b, rfl⟩ := claim_frame hc <;> cases h
    · exact ⟨rfl, .inr ⟨l.pc, .inr ⟨_, rfl⟩⟩⟩
    · exact ⟨rfl, .inl rfl⟩
  · cases h; exact ⟨rfl, .inl rfl⟩

theorem decodeStage_frame {s t : State} (h : decodeStage s = .next t) : DecodeFrame s t := by
  unfold decodeStage at h
  cases hd : s.latD with
  | none => rw [hd] at h; cases h; exact ⟨rfl, .inl rfl⟩
  | some l =>
    simp only [hd, onLatch, decodeLatch] at h
    split at h
    · rename_i i _
      rw [exec_decode i _ (s.enter_stage .decode), State.enter_latD, hd] at h
      obtain ⟨hfields, hstatus⟩ := issue_frame h
      exact ⟨hfields, hstatus⟩
    · cases h; exact ⟨rfl, .inr ⟨l.pc, .inl rfl⟩⟩

theorem fetchStage_frame {s t : State} (h : fetchStage s = .next t) : FetchFrame s t := by
  rcases fetchStage_cases s with ⟨_, e⟩ | ⟨_, _, e⟩ | ⟨_, _, _, e⟩ | ⟨_, _, _, e⟩
  case inr.inr.inr =>
    rw [fetchAtPc_next _ (s.enter_stage .fetch)] at e
    cases e.symm.trans h
    split <;> exact ⟨rfl⟩
  all_goals cases e.symm.trans h; exact ⟨rfl⟩

/-! ### The taps (R35, R148 to R150) -/

/-- Both taps of a state. -/
def State.taps (s : State) : Option (Reg × Word) × Option (Reg × Word) := (s.tapE, s.tapM)

theorem decodeStage_keeps_taps : Keeps State.taps decodeStage := fun _ _ h =>
  (congrArg State.taps (decodeStage_frame h).fields :)

theorem fetchStage_keeps_taps : Keeps State.taps fetchStage := fun _ _ h =>
  (congrArg State.taps (fetchStage_frame h).fields :)

theorem endTick_keeps_taps : Keeps State.taps endTick := by
  intro s t h
  cases h; rfl

open Claim

/-- A stage whose instruction acts the same way on the changed state `g s` does so as a whole. -/
theorem runLatch_carries {st : Stage} {o : Option Latch} {s t : State} {g : State → State}
    (h : runLatch st o s = .next t)
    (hexec : ∀ l i, o = some l → exec i s = .next t → exec i (g s) = .next (g t)) :
    runLatch st o (g s) = .next (g t) := by
  unfold runLatch at h ⊢
  cases o with
  | none => cases h; rfl
  | some l =>
    simp only at h ⊢
    split at h
    · exact hexec l _ rfl h
    · cases h

theorem writebackAct_withTaps (x y : Option (Reg × Word)) {i : Instr} {l : Latch} {s t : State}
    (h : writebackAct i l s = .next t) :
    writebackAct i l (withTaps s x y) = .next (withTaps t x y) := by
  cases i <;> cases h <;> rfl

/-- Writeback neither reads nor writes a tap (R127). -/
theorem writebackStage_withTaps (x y : Option (Reg × Word)) {s t : State}
    (h : writebackStage s = .next t) :
    writebackStage (withTaps s x y) = .next (withTaps t x y) := by
  refine runLatch_carries (s := s.enter .writeback) (g := fun s => withTaps s x y) h
    fun l i (hw : s.latW = some l) he => ?_
  rw [exec_writeback i _ (s.enter_stage .writeback), State.enter_latW, hw] at he
  rw [exec_writeback i (withTaps (s.enter .writeback) x y) rfl]
  simpa [withTaps, hw, onLatch] using writebackAct_withTaps x y he

/-- The state with this Execute tap in place of its own. -/
def withTapE (x : Option (Reg × Word)) (s : State) : State := withTaps s x s.tapM

theorem loadWord_withTapE (x : Option (Reg × Word)) {rd : Reg} {l : Latch} {s t : State}
    (h : loadWord rd l s = .next t) : loadWord rd l (withTapE x s) = .next (withTapE x t) := by
  have hread : (withTapE x s).memRead l.addr = s.memRead l.addr := rfl
  unfold loadWord at h ⊢
  cases hr : s.memRead l.addr <;> rw [hr] at h <;> cases h <;> rw [hread, hr] <;> rfl

theorem storeWord_withTapE (x : Option (Reg × Word)) {l : Latch} {s t : State}
    (h : storeWord l s = .next t) : storeWord l (withTapE x s) = .next (withTapE x t) := by
  have hbounds : (withTapE x s).inBounds l.addr = s.inBounds l.addr := rfl
  unfold storeWord State.memWrite at h ⊢
  cases hb : s.inBounds l.addr <;> rw [hb] at h <;> cases h <;> rw [hbounds, hb] <;> rfl

theorem memoryAct_withTapE (x : Option (Reg × Word)) {i : Instr} {l : Latch} {s t : State}
    (h : memoryAct i l s = .next t) : memoryAct i l (withTapE x s) = .next (withTapE x t) := by
  cases i
  case load | ldi => exact loadWord_withTapE x h
  case store | sti => exact storeWord_withTapE x h
  all_goals cases h; rfl

/-- Memory clears its own tap and does not touch the Execute tap (R121, R150). -/
theorem memoryStage_withTaps (x y : Option (Reg × Word)) {s t : State}
    (h : memoryStage s = .next t) :
    memoryStage (withTaps s x y) = .next (withTaps t x t.tapM) := by
  refine runLatch_carries (s := s.enter .memory) (g := withTapE x) h
    fun l i (hm : s.latM = some l) he => ?_
  rw [exec_memory i _ (s.enter_stage .memory), State.enter_latM, hm] at he
  rw [exec_memory i (withTapE x (s.enter .memory)) rfl]
  simpa [withTapE, withTaps, hm, onLatch] using memoryAct_withTapE x he

/-! ### The tick cut at the end of Memory

A fatal condition of Memory ends the tick with Execute not evaluated (R256), so its tap stands;
every other tick evaluates Execute. -/

theorem andThen_assoc (r : Res) (f g : State → Res) :
    andThen (andThen r f) g = andThen r fun s => andThen (f s) g := by
  cases r with
  | next s =>
    by_cases hs : s.status = .running
    · simp [andThen_of_running hs]
    · simp [andThen_of_stopped hs]
  | fault f => rfl
  | refused f => rfl

/-- The tick up to the end of Memory (R111). -/
def throughMemory (s : State) : Res :=
  andThen (writebackStage { s with haltedNow := false }) memoryStage

/-- The tick from Execute on (R111). -/
def afterMemory (s : State) : Res :=
  andThen (andThen (andThen (executeStage s) decodeStage) fetchStage) endTick

theorem tick_eq (s : State) : tick s = andThen (throughMemory s) afterMemory := by
  rw [tick, frontHalf, andThen_assoc (andThen _ memoryStage), andThen_assoc (andThen _ memoryStage),
    andThen_assoc (andThen _ memoryStage)]
  rfl

/-! #### Up to Memory -/

/-- Writeback never ends a tick, so Memory is always evaluated. -/
theorem throughMemory_next {s m : State} (hs : s.status = .running)
    (h : throughMemory s = .next m) :
    ∃ w, writebackStage { s with haltedNow := false } = .next w ∧ w.status = .running ∧
      memoryStage w = .next m := by
  rcases andThen_next h with ⟨hw, hstop⟩ | ⟨w, hw, hrun, hm⟩
  · exact absurd ((congrArg State.status (writebackStage_frame hw).fields :).trans hs) hstop
  · exact ⟨w, hw, hrun, hm⟩

theorem throughMemory_withTaps (x y : Option (Reg × Word)) {s m : State} (hs : s.status = .running)
    (h : throughMemory s = .next m) : throughMemory (withTaps s x y) = .next (withTapE x m) := by
  obtain ⟨w, hw, hrun, hm⟩ := throughMemory_next hs h
  have hw' := writebackStage_withTaps x y hw
  calc throughMemory (withTaps s x y)
      = andThen (.next (withTaps w x y)) memoryStage := congrArg (andThen · memoryStage) hw'
    _ = memoryStage (withTaps w x y) := andThen_of_running hrun
    _ = .next (withTapE x m) := memoryStage_withTaps x y hm

theorem throughMemory_status {s m : State} (hs : s.status = .running)
    (h : throughMemory s = .next m) :
    m.status = .running ∨ ∃ pc a, m.status = .faulted (.memoryOutOfBounds pc a) := by
  obtain ⟨w, _, hrun, hm⟩ := throughMemory_next hs h
  exact hrun ▸ (memoryStage_frame hm).status

theorem throughMemory_latE {s m : State} (hs : s.status = .running)
    (h : throughMemory s = .next m) :
    m.latE = s.latE := by
  obtain ⟨w, hw, _, hm⟩ := throughMemory_next hs h
  calc m.latE = w.latE := (congrArg State.latE (memoryStage_frame hm).fields :)
    _ = s.latE := (congrArg State.latE (writebackStage_frame hw).fields :)

theorem throughMemory_tapM_of_empty {s m : State} (hs : s.status = .running)
    (h : throughMemory s = .next m) (hM : s.latM = none) : m.tapM = none := by
  obtain ⟨w, hw, _, hm⟩ := throughMemory_next hs h
  have hwM : w.latM = none := (congrArg State.latM (writebackStage_frame hw).fields :).trans hM
  rw [memoryStage, hwM] at hm
  cases hm
  rfl

/-! #### From Execute on -/

/-- Execute clears its own tap before it does anything (R122, R150). -/
theorem executeStage_withTapE (x : Option (Reg × Word)) (s : State) :
    executeStage (withTapE x s) = executeStage s := rfl

theorem afterMemory_withTapE (x : Option (Reg × Word)) (s : State) :
    afterMemory (withTapE x s) = afterMemory s := by
  rw [afterMemory, executeStage_withTapE, afterMemory]

/-- What the taps hold after the tick is what Execute left. -/
theorem afterMemory_taps {m t : State} (h : afterMemory m = .next t) :
    ∃ e, executeStage m = .next e ∧ t.taps = e.taps := by
  obtain ⟨f, hf, ht⟩ := andThen_keeps endTick_keeps_taps h
  obtain ⟨d, hd, hf'⟩ := andThen_keeps fetchStage_keeps_taps hf
  obtain ⟨e, he, hd'⟩ := andThen_keeps decodeStage_keeps_taps hd
  exact ⟨e, he, ht.trans (hf'.trans hd')⟩

theorem afterMemory_tapM {m t : State} (h : afterMemory m = .next t) : t.tapM = m.tapM := by
  obtain ⟨e, he, ht⟩ := afterMemory_taps h
  calc t.tapM = e.tapM := congrArg Prod.snd ht
    _ = m.tapM := (congrArg State.tapM (executeStage_frame he).fields :)

theorem afterMemory_tapE_of_empty {m t : State} (h : afterMemory m = .next t)
    (hE : m.latE = none) : t.tapE = none := by
  obtain ⟨e, he, ht⟩ := afterMemory_taps h
  rw [executeStage, hE] at he
  cases he
  exact congrArg Prod.fst ht

/-- The state does not record a fatal condition of Memory (R253). -/
def NoMemoryFault (s : State) : Prop := ∀ pc a, s.status ≠ .faulted (.memoryOutOfBounds pc a)

/-- Every next state `f` answers from a state with `P`, also one that raises, has `P`. -/
def Preserves (P : State → Prop) (f : State → Res) : Prop :=
  ∀ ⦃s t : State⦄, f s = .next t → P s → P t

theorem andThen_preserves {P : State → Prop} {r : Res} {f : State → Res} (hf : Preserves P f)
    (hr : ∀ s, r = .next s → P s) (t : State) (h : andThen r f = .next t) : P t := by
  rcases andThen_next h with ⟨ht, _⟩ | ⟨s, hs, _, ht⟩
  · exact hr t ht
  · exact hf ht (hr s hs)

theorem executeStage_preserves_noMemoryFault : Preserves NoMemoryFault executeStage := by
  intro s t h hs
  rcases (executeStage_frame h).status with e | ⟨_, e | e⟩
  · simpa [NoMemoryFault, e] using hs
  · simp [NoMemoryFault, e]
  · simp [NoMemoryFault, e]

theorem decodeStage_preserves_noMemoryFault : Preserves NoMemoryFault decodeStage := by
  intro s t h hs
  rcases (decodeStage_frame h).status with e | ⟨_, e | ⟨_, e⟩⟩
  · simpa [NoMemoryFault, e] using hs
  · simp [NoMemoryFault, e]
  · simp [NoMemoryFault, e]

theorem fetchStage_preserves_noMemoryFault : Preserves NoMemoryFault fetchStage := by
  intro s t h hs
  have e : t.status = s.status := (congrArg State.status (fetchStage_frame h).fields :)
  simpa [NoMemoryFault, e] using hs

theorem endTick_preserves_noMemoryFault : Preserves NoMemoryFault endTick := by
  intro s t h _
  cases h
  cases hhalt : s.haltedNow <;> simp [NoMemoryFault]

theorem afterMemory_noMemoryFault {m t : State} (hm : m.status = .running)
    (h : afterMemory m = .next t) : NoMemoryFault t :=
  andThen_preserves endTick_preserves_noMemoryFault
    (andThen_preserves fetchStage_preserves_noMemoryFault
      (andThen_preserves decodeStage_preserves_noMemoryFault fun _ he =>
        executeStage_preserves_noMemoryFault he (by simp [NoMemoryFault, hm]))) t h

/-! #### The whole tick -/

/-- Both ways a tick from a running state can answer: Memory raises and ends it, or Execute is
evaluated and the status says so (R256). -/
theorem tick_next {s t : State} (hs : s.status = .running) (h : tick s = .next t) :
    (throughMemory s = .next t ∧ ∃ pc a, t.status = .faulted (.memoryOutOfBounds pc a)) ∨
    ∃ m, throughMemory s = .next m ∧ m.status = .running ∧ afterMemory m = .next t ∧
      NoMemoryFault t := by
  rw [tick_eq] at h
  rcases andThen_next h with ⟨hm, hstop⟩ | ⟨m, hm, hrun, ht⟩
  · exact .inl ⟨hm, (throughMemory_status hs hm).resolve_left hstop⟩
  · exact .inr ⟨m, hm, hrun, ht, afterMemory_noMemoryFault hrun ht⟩

theorem step_withTaps (x y : Option (Reg × Word)) {s t : State} (h : step s = .next t) :
    (NoMemoryFault t → step (withTaps s x y) = .next t) ∧
    (∀ pc a, t.status = .faulted (.memoryOutOfBounds pc a) →
      step (withTaps s x y) = .next (withTapE x t)) := by
  obtain ⟨hs, ht⟩ := step_next h
  have hstep : ∀ {m}, throughMemory s = .next m →
      step (withTaps s x y) = andThen (.next (withTapE x m)) afterMemory := fun hm => by
    rw [← throughMemory_withTaps x y hs hm, ← tick_eq]
    simp [step, withTaps, hs]
  rcases tick_next hs ht with ⟨hm, pc, a, hfault⟩ | ⟨m, hm, hrun, hafter, hno⟩
  · refine ⟨fun hno => absurd hfault (hno pc a), fun _ _ _ => ?_⟩
    rw [hstep hm, andThen_of_stopped (s := withTapE x t) (by simp [withTapE, withTaps, hfault])]
  · refine ⟨fun _ => ?_, fun pc a hfault => absurd hfault (hno pc a)⟩
    rw [hstep hm, andThen_of_running (s := withTapE x m) hrun, afterMemory_withTapE, hafter]

theorem step_tapM_of_empty {s t : State} (h : step s = .next t) (hM : s.latM = none) :
    t.tapM = none := by
  obtain ⟨hs, ht⟩ := step_next h
  rcases tick_next hs ht with ⟨hm, _⟩ | ⟨m, hm, _, hafter, _⟩
  · exact throughMemory_tapM_of_empty hs hm hM
  · rw [afterMemory_tapM hafter, throughMemory_tapM_of_empty hs hm hM]

theorem step_tapE_of_empty {s t : State} (h : step s = .next t) (hE : s.latE = none)
    (hno : NoMemoryFault t) : t.tapE = none := by
  obtain ⟨hs, ht⟩ := step_next h
  rcases tick_next hs ht with ⟨_, pc, a, hfault⟩ | ⟨m, hm, _, hafter, _⟩
  · exact absurd hfault (hno pc a)
  · exact afterMemory_tapE_of_empty hafter ((throughMemory_latE hs hm).trans hE)

/-- Settles O23: Writeback carries both taps along unread, Memory and Execute clear their own before
they act, and the stages after Execute keep what it left. -/
theorem tapsAreTransient : Obligations.TapsAreTransient := by
  unfold Obligations.TapsAreTransient
  refine ⟨fun s x y => ⟨rfl, rfl, fun t h => step_withTaps x y h⟩, fun s t h => ?_⟩
  exact ⟨step_tapM_of_empty h, step_tapE_of_empty h⟩

end Sys2Proof.Machine

namespace Sys2Proof.Machine

/-! ### Result-producing kinds, stage by stage (spec/42_alu_and_compare.md R170)

A kind is settled by its five actions: Fetch is the same for all but HALT, Memory and Writeback are
the shared `passResult` and `retireResult`, and only the value Execute publishes differs. -/

open Claim

/-! #### The stages every result-producing kind shares -/

theorem fetches (i : Instr) : Fetches i := by
  intro s hstage hi
  rw [exec_fetch i s hstage, if_neg hi]
  rfl

theorem passesThrough_of_passResult {i : Instr} {rd : Reg} (hact : memoryAct i = passResult rd) :
    PassesThrough i (fun l => some (rd, l.res)) := by
  intro s l hstage hM
  rw [exec_memory i s hstage, hM, hact]
  rfl

theorem writesBack_of_retireResult {i : Instr} {rd : Reg}
    (hact : writebackAct i = retireResult rd) : WritesBack i rd := by
  intro s l v hstage hW hres
  have hv : l.res = v := by simp [Latch.res, hres]
  rw [exec_writeback i s hstage, hW, hact, ← hv]
  rfl

/-! #### Execute -/

theorem Latch.rs1v_of_some {l : Latch} {a : Word} (h : l.rs1Val = some a) : l.rs1v = a := by
  simp [Latch.rs1v, h]

theorem Latch.rs2v_of_some {l : Latch} {b : Word} (h : l.rs2Val = some b) : l.rs2v = b := by
  simp [Latch.rs2v, h]

/-- The two ways Execute publishes a result, as one: with the flags of R173 or without (R174). -/
def publishResult (setsFlags : Bool) (rd : Reg) (v : Word) : Latch → State → Res :=
  if setsFlags then publishArith rd v else publish rd v

theorem publishResult_next (setsFlags : Bool) (rd : Reg) (v : Word) (l : Latch) (s : State) :
    publishResult setsFlags rd v l s = .next { s with
      zFlag := if setsFlags then decide (v.toInt = 0) else s.zFlag
      pFlag := if setsFlags then decide (v.toInt > 0) else s.pFlag
      tapE := some (rd, v)
      latM := some { l with result := some v }
      latE := none } := by
  cases setsFlags <;> rfl

section
variable {i : Instr} {srcs : List Reg} {rd rs1 rs2 : Reg} {setsFlags : Bool}

/-- What is left to show of a result-producing kind once the shared stages are done: that Execute
publishes its value, given the operands the kind has. -/
theorem resultKind_of_publishResult {value : Word → Word → Word}
    (hdecodes : Decodes i srcs [rd])
    (hexecute : ∀ (l : Latch) (a b : Word), (i.rs1Opt.isSome = true → l.rs1Val = some a) →
      (i.rs2Opt.isSome = true → l.rs2Val = some b) →
      executeAct i l = publishResult setsFlags rd (value a b) l)
    (hmemory : memoryAct i = passResult rd) (hwriteback : writebackAct i = retireResult rd) :
    ResultKind i srcs rd value setsFlags := by
  refine ⟨fetches i, hdecodes, ?_, passesThrough_of_passResult hmemory,
    writesBack_of_retireResult hwriteback⟩
  intro s l a b hstage hE ha hb
  calc exec i s = executeAct i l s := by rw [exec_execute i s hstage, hE]; rfl
    _ = publishResult setsFlags rd (value a b) l s := by rw [hexecute l a b ha hb]
    _ = _ := publishResult_next setsFlags rd (value a b) l s

/-- The kinds with two register operands. -/
theorem resultKind_of_registers (value : Word → Word → Word)
    (hrs1 : i.rs1Opt = some rs1) (hrs2 : i.rs2Opt = some rs2) (hdecodes : Decodes i [rs1, rs2] [rd])
    (hexecute : ∀ l, executeAct i l = publishResult setsFlags rd (value l.rs1v l.rs2v) l)
    (hmemory : memoryAct i = passResult rd) (hwriteback : writebackAct i = retireResult rd) :
    ResultKind i [rs1, rs2] rd value setsFlags := by
  refine resultKind_of_publishResult hdecodes (fun l a b ha hb => ?_) hmemory hwriteback
  rw [hexecute l, Latch.rs1v_of_some (ha (by simp [hrs1])),
    Latch.rs2v_of_some (hb (by simp [hrs2]))]

/-- The kinds with one register operand, whose second operand is the record's immediate. -/
theorem resultKind_of_immediate (value : Word → Word)
    (hrs1 : i.rs1Opt = some rs1) (hdecodes : Decodes i [rs1] [rd])
    (hexecute : ∀ l, executeAct i l = publishResult setsFlags rd (value l.rs1v) l)
    (hmemory : memoryAct i = passResult rd) (hwriteback : writebackAct i = retireResult rd) :
    ResultKind i [rs1] rd (fun a _ => value a) setsFlags := by
  refine resultKind_of_publishResult hdecodes (fun l a b ha _ => ?_) hmemory hwriteback
  rw [hexecute l, Latch.rs1v_of_some (ha (by simp [hrs1]))]

end

/-- Settles O24: the three kinds share every stage but Execute, which publishes the wrapped sum,
difference or product with the flags. -/
theorem addSubMulRules : Obligations.AddSubMulRules := by
  unfold Obligations.AddSubMulRules
  intro rd rs1 rs2
  refine ⟨?add, ?sub, ?mul⟩
  case add => exact resultKind_of_registers addWords rfl rfl ⟨rfl, rfl⟩ (fun _ => rfl) rfl rfl
  case sub => exact resultKind_of_registers subWords rfl rfl ⟨rfl, rfl⟩ (fun _ => rfl) rfl rfl
  case mul => exact resultKind_of_registers mulWords rfl rfl ⟨rfl, rfl⟩ (fun _ => rfl) rfl rfl

/-- Settles O27: as for ADD, but Execute publishes the bitwise result without the flags. -/
theorem bitwiseRules : Obligations.BitwiseRules := by
  unfold Obligations.BitwiseRules
  intro rd rs1 rs2
  refine ⟨?and, ?or, ?xor⟩
  case and => exact resultKind_of_registers (· &&& ·) rfl rfl ⟨rfl, rfl⟩ (fun _ => rfl) rfl rfl
  case or => exact resultKind_of_registers (· ||| ·) rfl rfl ⟨rfl, rfl⟩ (fun _ => rfl) rfl rfl
  case xor => exact resultKind_of_registers (· ^^^ ·) rfl rfl ⟨rfl, rfl⟩ (fun _ => rfl) rfl rfl

/-- Settles O28: as for ADD and SUB, with the immediate in place of the second register. -/
theorem immediateArithmeticRules : Obligations.ImmediateArithmeticRules := by
  unfold Obligations.ImmediateArithmeticRules
  intro rd rs1 imm
  refine ⟨?addl, ?subl⟩
  case addl => exact resultKind_of_immediate (addWords · imm) rfl ⟨rfl, rfl⟩ (fun _ => rfl) rfl rfl
  case subl => exact resultKind_of_immediate (subWords · imm) rfl ⟨rfl, rfl⟩ (fun _ => rfl) rfl rfl

end Sys2Proof.Machine

namespace Sys2Proof.Machine

/-! ### Kinds that write no register, stage by stage (spec/45_system.md R241)

They share the last two stages: Memory is `passNothing` and Writeback is `retireNothing`. -/

open Claim

theorem passesThrough_of_passNothing {i : Instr} (hact : memoryAct i = passNothing) :
    PassesThrough i (fun _ => none) := by
  intro s l hstage hM
  rw [exec_memory i s hstage, hM, hact]
  rfl

theorem writesNothingBack_of_retireNothing {i : Instr}
    (hact : writebackAct i = fun _ => retireNothing) : WritesNothingBack i := by
  intro s l hstage hW
  rw [exec_writeback i s hstage, hW, hact]
  rfl

/-- Execute of a kind without an action of its own only moves its latch on (R240, R241). -/
theorem exec_execute_of_noAction {i : Instr} (hact : executeAct i = noAction) {s : State} {l : Latch}
    (hstage : s.stage = .execute) (hE : s.latE = some l) :
    exec i s = .next { s with tapE := none, latM := some l, latE := none } := by
  rw [exec_execute i s hstage, hE, hact]
  rfl

/-- Settles O38: NOP shares the Fetch action of every kind but HALT, names no register, and takes the
no-action branch of every later stage: Execute and Memory move its latch on, Writeback counts it. -/
theorem nopRule : Obligations.NopRule := by
  unfold Obligations.NopRule
  refine ⟨fetches .nop, ?decodes, ?execute, passesThrough_of_passNothing rfl,
    writesNothingBack_of_retireNothing rfl⟩
  case decodes => exact ⟨rfl, rfl⟩
  case execute => exact fun s l hstage hE => exec_execute_of_noAction rfl hstage hE

end Sys2Proof.Machine

namespace Sys2Proof

open Machine

/-! ### The instruction word (spec/30_encoding.md R81 to R92)

`encode` and `decode` are tied to each other through `Describes`: the fields of a word are the fields
of a record. -/

/-- The immediate field of a record: `imm mod 2^15`, or zero where its kind has none (R92). -/
def Instr.immBits (i : Instr) : Nat := i.immOpt.elim 0 immBits15

/-- Every field of the word is the record's field, or zero where its kind has none (R92). -/
structure Describes (i : Instr) (w : Word) : Prop where
  opcode : opcodeField w = i.opcode
  rd : rdField w = regBits i.rdOpt
  rs1 : rs1Field w = regBits i.rs1Opt
  rs2 : rs2Field w = regBits i.rs2Opt
  imm : immField w = i.immBits

theorem Instr.opcode_lt (i : Instr) : i.opcode < 32 := by
  cases i <;> simp [Instr.opcode]

theorem regBits_lt (r : Option Reg) : regBits r < 16 := by
  cases r <;> simp [regBits]

theorem immBits15_lt (imm : Word) : immBits15 imm < 32768 := Nat.mod_lt _ (by decide)

theorem Instr.immBits_lt (i : Instr) : i.immBits < 32768 := by
  unfold Instr.immBits
  cases i.immOpt with
  | none => decide
  | some imm => exact immBits15_lt imm

/-! #### Fields and words -/

theorem encode_eq (i : Instr) : encode i =
    assemble i.opcode (regBits i.rdOpt) (regBits i.rs1Opt) (regBits i.rs2Opt) i.immBits := by
  unfold encode Instr.immBits
  cases i.immOpt <;> rfl

theorem encode_toNat (i : Instr) : (encode i).toNat =
    i.opcode * 2 ^ 27 + regBits i.rdOpt * 2 ^ 23 + regBits i.rs1Opt * 2 ^ 19 +
      regBits i.rs2Opt * 2 ^ 15 + i.immBits := by
  have := i.opcode_lt
  have := regBits_lt i.rdOpt
  have := regBits_lt i.rs1Opt
  have := regBits_lt i.rs2Opt
  have := i.immBits_lt
  rw [encode_eq, assemble, BitVec.toNat_ofNat, Nat.mod_eq_of_lt (by omega)]

theorem describes_encode (i : Instr) : Describes i (encode i) := by
  have := i.opcode_lt
  have := regBits_lt i.rdOpt
  have := regBits_lt i.rs1Opt
  have := regBits_lt i.rs2Opt
  have := i.immBits_lt
  constructor <;>
    simp only [opcodeField, rdField, rs1Field, rs2Field, immField, bits, encode_toNat] <;> omega

/-- The fields of a word determine it. -/
theorem Describes.encode_eq {i : Instr} {w : Word} (h : Describes i w) : encode i = w := by
  obtain ⟨hop, hrd, hrs1, hrs2, himm⟩ := h
  simp only [opcodeField, rdField, rs1Field, rs2Field, immField, bits] at hop hrd hrs1 hrs2 himm
  have := w.isLt
  refine BitVec.eq_of_toNat_eq ?_
  rw [encode_toNat, ← hop, ← hrd, ← hrs1, ← hrs2, ← himm]
  omega

/-! #### The immediate (R83) -/

theorem immBits15_toInt (imm : Word) : (immBits15 imm : Int) = imm.toInt % 2 ^ 15 := by
  have := BitVec.toInt_eq_toNat_cond imm
  unfold immBits15
  split at this <;> omega

theorem sext15_toInt {n : Nat} (h : n < 32768) :
    (sext15 n).toInt = if n < 16384 then (n : Int) else n - 32768 := by
  unfold sext15 wrap32
  split <;> rw [BitVec.toInt_ofInt_eq_self (by decide)] <;> simp_all <;> omega

theorem immFits_sext15 {n : Nat} (h : n < 32768) : immFits (sext15 n) = true := by
  simp only [immFits, Bool.and_eq_true, decide_eq_true_eq, sext15_toInt h]
  split <;> omega

theorem immBits15_sext15 {n : Nat} (h : n < 32768) : immBits15 (sext15 n) = n := by
  have := immBits15_toInt (sext15 n)
  rw [sext15_toInt h] at this
  split at this <;> omega

theorem sext15_immBits15 {imm : Word} (h : immFits imm = true) : sext15 (immBits15 imm) = imm := by
  simp only [immFits, Bool.and_eq_true, decide_eq_true_eq] at h
  have := immBits15_toInt imm
  refine BitVec.eq_of_toInt_eq ?_
  rw [sext15_toInt (immBits15_lt imm)]
  split <;> omega

/-! #### The formats (R82, R88) -/

@[simp] theorem regOf_val (r : Reg) : regOf r.val = r := by
  simp [regOf]

theorem regOf_toNat {n : Nat} (h : n < 16) : (regOf n).val = n := Nat.mod_eq_of_lt h

theorem rdField_lt (w : Word) : rdField w < 16 := Nat.mod_lt _ (by decide)
theorem rs1Field_lt (w : Word) : rs1Field w < 16 := Nat.mod_lt _ (by decide)
theorem rs2Field_lt (w : Word) : rs2Field w < 16 := Nat.mod_lt _ (by decide)
theorem immField_lt (w : Word) : immField w < 32768 := Nat.mod_lt _ (by decide)

theorem ifUnusedZero_eq_ok {fields : List Nat} {i j : Instr} :
    ifUnusedZero fields i = .ok j ↔ (∀ n ∈ fields, n = 0) ∧ i = j := by
  unfold ifUnusedZero
  split <;> rename_i h <;> simp only [List.all_eq_true, beq_iff_eq] at h
  · simpa using fun _ => h
  · simp [h]

theorem ifUnusedZero_malformed {fields : List Nat} {i : Instr} :
    (∃ why, ifUnusedZero fields i = .malformed why) ↔ ∃ n ∈ fields, n ≠ 0 := by
  unfold ifUnusedZero
  split <;> rename_i h <;> simp only [List.all_eq_true, beq_iff_eq] at h
  · simpa using h
  · simpa using h

theorem malformed_if_eq_ok {p : Prop} [Decidable p] {why : Malformed} {d : Decoded} {i : Instr} :
    (if p then .malformed why else d) = .ok i ↔ ¬ p ∧ d = .ok i := by
  split <;> simp [*]

theorem malformed_if {p : Prop} [Decidable p] {why : Malformed} {d : Decoded} :
    (∃ why', (if p then .malformed why else d) = .malformed why') ↔
      p ∨ ∃ why', d = .malformed why' := by
  split <;> simp [*]

/-! #### `decode` against `Describes` -/

theorem decode_of_describes {i : Instr} {w : Word} (hwf : i.wellFormed = true)
    (h : Describes i w) : decode w = .ok i := by
  obtain ⟨hop, hrd, hrs1, hrs2, himm⟩ := h
  cases i <;>
    simp_all [decode, Instr.opcode, formatR, formatI, formatS, formatC, formatJ, formatB, formatK,
      formatN, ifUnusedZero_eq_ok, Instr.rdOpt, Instr.rs1Opt, Instr.rs2Opt, Instr.immOpt,
      Instr.immBits, regBits, Instr.wellFormed, sext15_immBits15, Fin.ext_iff]

/-- Every row of the decoder that accepts is a format whose unused fields are zero, LDI's with its
own condition besides; the record is built from the fields that are left. -/
theorem describes_of_decode {i : Instr} {w : Word} (h : decode w = .ok i) :
    i.wellFormed = true ∧ Describes i w := by
  have himm := immField_lt w
  unfold decode at h
  split at h
  all_goals
    simp only [formatR, formatI, formatS, formatC, formatJ, formatB, formatK, formatN,
      ifUnusedZero_eq_ok, malformed_if_eq_ok, ← and_assoc, reduceCtorEq] at h
  all_goals
    obtain ⟨hzero, rfl⟩ := h
    refine ⟨?_, ?_, ?_, ?_, ?_, ?_⟩
    all_goals
      simp_all [Instr.wellFormed, immFits_sext15, Instr.opcode, Instr.rdOpt, Instr.rs1Opt,
        Instr.rs2Opt, Instr.immOpt, Instr.immBits, regBits, regOf_toNat, rdField_lt, rs1Field_lt,
        rs2Field_lt, immBits15_sext15, Fin.ext_iff]

/-- Settles O1: `encode i` is described by `i`, and a word is decoded to the one well-formed record
that describes it. -/
theorem encodeInvertsDecode : Obligations.EncodeInvertsDecode := by
  unfold Obligations.EncodeInvertsDecode
  refine ⟨?fields, ?decodes, ?encodes⟩
  case fields =>
    intro i _
    obtain ⟨hop, hrd, hrs1, hrs2, himm⟩ := describes_encode i
    refine ⟨hop, ?_, ?_, ?_, ?_⟩
    · rw [hrd]; cases i.rdOpt <;> rfl
    · rw [hrs1]; cases i.rs1Opt <;> rfl
    · rw [hrs2]; cases i.rs2Opt <;> rfl
    · rw [himm, Instr.immBits]
      cases i.immOpt with
      | none => rfl
      | some imm => exact immBits15_toInt imm
  case decodes => exact fun i hwf => decode_of_describes hwf (describes_encode i)
  case encodes =>
    intro w i h
    obtain ⟨hwf, hdesc⟩ := describes_of_decode h
    exact ⟨hwf, hdesc.encode_eq⟩

/-- Settles O2: row by row of the decoder, a word is refused where an unused field of the row's
format is not zero, by LDI's own condition, or by the last row. -/
theorem malformedWordsExactly : Obligations.MalformedWordsExactly := by
  unfold Obligations.MalformedWordsExactly
  intro w
  unfold decode
  split
  case h_23 => simp_all; omega
  all_goals
    rename_i hop
    simp [hop, formatR, formatI, formatS, formatC, formatJ, formatB, formatK, formatN,
      ifUnusedZero_malformed, malformed_if, or_comm]

/-- Settles O3: each word is decoded. -/
theorem sampleWordsDecode : Obligations.SampleWordsDecode := by
  unfold Obligations.SampleWordsDecode
  decide

/-! ### Loading (R93, R251) -/

theorem loadImage_of_wellFormed {ws : List Word} (n : Nat) (h : ∀ w ∈ ws, ∃ i, decode w = .ok i) :
    ∃ is, loadImage n ws = .inl is ∧ is.map Decoded.ok = ws.map decode := by
  induction ws generalizing n with
  | nil => exact ⟨[], rfl, rfl⟩
  | cons w ws ih =>
    obtain ⟨i, hi⟩ := h w (.head _)
    obtain ⟨is, his, hmap⟩ := ih (n + 1) fun v hv => h v (.tail _ hv)
    exact ⟨i :: is, by simp [loadImage, hi, his], by simp [hi, hmap]⟩

/-- The index reported is that of the first malformed word, counted from `n`. -/
theorem loadImage_of_malformed {ws : List Word} {k : Nat} {w : Word} (n : Nat) (hw : ws[k]? = some w)
    (hbad : ∃ why, decode w = .malformed why)
    (hok : ∀ j (v : Word), j < k → ws[j]? = some v → ∃ i, decode v = .ok i) :
    loadImage n ws = .inr (n + k) := by
  induction ws generalizing n k with
  | nil => simp at hw
  | cons u ws ih =>
    cases k with
    | zero =>
      obtain ⟨why, hwhy⟩ := hbad
      obtain rfl : u = w := by simpa using hw
      simp [loadImage, hwhy]
    | succ k =>
      obtain ⟨i, hi⟩ := hok 0 u (Nat.succ_pos k) rfl
      have hrest := ih (n + 1) (by simpa using hw)
        fun j v hj hv => hok (j + 1) v (Nat.succ_lt_succ hj) (by simpa using hv)
      simp [loadImage, hi, hrest, Nat.add_comm, Nat.add_left_comm]

/-- Settles O5: the loader's check by induction over the words; a refused load is a faulted state,
which has no step. -/
theorem loadChecksEveryWord : Obligations.LoadChecksEveryWord := by
  unfold Obligations.LoadChecksEveryWord
  intro s ws
  refine ⟨fun h => ?loaded, fun k w hw hbad hok => ?refused⟩
  case loaded =>
    obtain ⟨is, his, hmap⟩ := loadImage_of_wellFormed 0 h
    simp [State.load, his, hmap]
  case refused =>
    have hload : s.load ws = { s with status := .faulted (.malformedImage k) } := by
      simp [State.load, loadImage_of_malformed 0 hw hbad hok]
    rw [hload]
    exact ⟨rfl, rfl⟩

end Sys2Proof

namespace Sys2Proof.Machine

/-! ### The actions of Execute, Memory and Writeback as equations

What each kind computes is given by functions of its record, its latch and the part of the state it
reads; one equation per stage ties them to the model's actions. Everything later speaks of these
functions. -/

/-! #### Execute (spec/42_alu_and_compare.md, 43_load_store.md, 44_control_transfer.md) -/

/-- The result Execute computes, for the kinds that have one (R175 to R184). -/
def aluResult : Instr → Latch → Option Word
  | .add _ _ _, l => some (addWords l.rs1v l.rs2v)
  | .sub _ _ _, l => some (subWords l.rs1v l.rs2v)
  | .mul _ _ _, l => some (mulWords l.rs1v l.rs2v)
  | .div _ _ _, l => some (quotWords l.rs1v l.rs2v)
  | .and _ _ _, l => some (l.rs1v &&& l.rs2v)
  | .or _ _ _, l => some (l.rs1v ||| l.rs2v)
  | .xor _ _ _, l => some (l.rs1v ^^^ l.rs2v)
  | .addl _ _ imm, l => some (addWords l.rs1v imm)
  | .subl _ _ imm, l => some (subWords l.rs1v imm)
  | .loadconst _ imm, _ => some imm
  | _, _ => none

/-- The word index Execute computes, for the kinds that access memory (R200). -/
def accessIndex : Instr → Latch → Option Word
  | .load _ _ imm, l | .ldi _ _ imm, l => some (effAddr l.rs1v imm)
  | .store _ _ imm, l | .sti _ _ imm, l => some (effAddr l.rs2v imm)
  | _, _ => none

/-- The base register of LDI and STI with its next value (R205). -/
def baseUpdate : Instr → Latch → Option (Reg × Word)
  | .ldi _ rs1 _, l => some (rs1, postIncrement l.rs1v)
  | .sti _ rs2 _, l => some (rs2, postIncrement l.rs2v)
  | _, _ => none

/-- The latch Execute hands to `M` (R122). -/
def executed (i : Instr) (l : Latch) : Latch :=
  { l with
    result := (aluResult i l).or l.result
    memAddr := (accessIndex i l).or l.memAddr
    bypass := ((baseUpdate i l).map Prod.snd).or l.bypass }

/-- What Execute publishes (R148): the result, or the next base. -/
def executeTap (i : Instr) (l : Latch) : Option (Reg × Word) :=
  match aluResult i l with
  | some v => i.rdOpt.map (·, v)
  | none => baseUpdate i l

/-- The condition a DIV raises in Execute, tested in the order of R178. -/
def divideFault : Instr → Latch → Option Fatal
  | .div _ _ _, l =>
    if l.rs2v = 0 then some (.divideByZero l.pc)
    else if l.rs1v = minWord ∧ l.rs2v = minusOne then some (.divideOverflow l.pc)
    else none
  | _, _ => none

/-- The kinds whose result sets the flags (R173). -/
def setsFlags : Instr → Bool
  | .add _ _ _ | .sub _ _ _ | .mul _ _ _ | .div _ _ _ | .addl _ _ _ | .subl _ _ _ => true
  | _ => false

/-- `Z` after Execute (R173, R190). -/
def zAfter (i : Instr) (l : Latch) (z : Bool) : Bool :=
  match i with
  | .cmp _ _ => decide (l.rs1v = l.rs2v)
  | i => if setsFlags i then decide ((executed i l).res.toInt = 0) else z

/-- `P` after Execute (R173, R190). -/
def pAfter (i : Instr) (l : Latch) (p : Bool) : Bool :=
  match i with
  | .cmp _ _ => decide (l.rs1v.toInt > l.rs2v.toInt)
  | i => if setsFlags i then decide ((executed i l).res.toInt > 0) else p

/-- Where a control transfer that is taken goes (R224 to R229). -/
def transfer (i : Instr) (l : Latch) (z p : Bool) : Option Word :=
  match i with
  | .jump _ imm => some (jumpTarget l.rs1v imm)
  | .bz imm => if z then some (branchTarget l.pc imm) else none
  | .bnz imm => if !z then some (branchTarget l.pc imm) else none
  | .bp imm => if p then some (branchTarget l.pc imm) else none
  | .bnp imm => if !p then some (branchTarget l.pc imm) else none
  | _ => none

/-- The redirection of fetch by a control transfer, if one is taken (R221). -/
def redirect (target : Option Word) (s : State) : State :=
  match target with
  | some a => taken a s
  | none => s

/-! What a redirection does to each field (R221). -/

@[simp] theorem redirect_params (a : Option Word) (s : State) :
    (redirect a s).params = s.params := by
  cases a <;> simp [redirect]
@[simp] theorem redirect_image (a : Option Word) (s : State) : (redirect a s).image = s.image := by
  cases a <;> simp [redirect]
@[simp] theorem redirect_regs (a : Option Word) (s : State) : (redirect a s).regs = s.regs := by
  cases a <;> simp [redirect]
@[simp] theorem redirect_busy (a : Option Word) (s : State) : (redirect a s).busy = s.busy := by
  cases a <;> simp [redirect]
@[simp] theorem redirect_zFlag (a : Option Word) (s : State) : (redirect a s).zFlag = s.zFlag := by
  cases a <;> simp [redirect]
@[simp] theorem redirect_pFlag (a : Option Word) (s : State) : (redirect a s).pFlag = s.pFlag := by
  cases a <;> simp [redirect]
@[simp] theorem redirect_latF (a : Option Word) (s : State) : (redirect a s).latF = s.latF := by
  cases a <;> simp [redirect]
@[simp] theorem redirect_latE (a : Option Word) (s : State) : (redirect a s).latE = s.latE := by
  cases a <;> simp [redirect]
@[simp] theorem redirect_latM (a : Option Word) (s : State) : (redirect a s).latM = s.latM := by
  cases a <;> simp [redirect]
@[simp] theorem redirect_latW (a : Option Word) (s : State) : (redirect a s).latW = s.latW := by
  cases a <;> simp [redirect]
@[simp] theorem redirect_tapE (a : Option Word) (s : State) : (redirect a s).tapE = s.tapE := by
  cases a <;> simp [redirect]
@[simp] theorem redirect_tapM (a : Option Word) (s : State) : (redirect a s).tapM = s.tapM := by
  cases a <;> simp [redirect]
@[simp] theorem redirect_cycles (a : Option Word) (s : State) :
    (redirect a s).cycles = s.cycles := by
  cases a <;> simp [redirect]
@[simp] theorem redirect_retired (a : Option Word) (s : State) :
    (redirect a s).retired = s.retired := by
  cases a <;> simp [redirect]
@[simp] theorem redirect_status (a : Option Word) (s : State) :
    (redirect a s).status = s.status := by
  cases a <;> simp [redirect]
@[simp] theorem redirect_mem (a : Option Word) (s : State) : (redirect a s).mem = s.mem := by
  cases a <;> simp [redirect]
@[simp] theorem redirect_haltedNow (a : Option Word) (s : State) :
    (redirect a s).haltedNow = s.haltedNow := by
  cases a <;> simp [redirect]
@[simp] theorem redirect_stage (a : Option Word) (s : State) : (redirect a s).stage = s.stage := by
  cases a <;> simp [redirect]
@[simp] theorem redirect_pc (a : Option Word) (s : State) : (redirect a s).pc = a.getD s.pc := by
  cases a <;> simp [redirect]
@[simp] theorem redirect_latD (a : Option Word) (s : State) :
    (redirect a s).latD = if a.isSome then none else s.latD := by
  cases a <;> simp [redirect]
@[simp] theorem redirect_fetchSuppress (a : Option Word) (s : State) :
    (redirect a s).fetchSuppress = (a.isSome || s.fetchSuppress) := by
  cases a <;> simp [redirect]

/-- The state Execute leaves when it does not raise. -/
def afterExecute (i : Instr) (l : Latch) (s : State) : State :=
  toMemory (executed i l) (executeTap i l) (redirect (transfer i l s.zFlag s.pFlag)
    { s with zFlag := zAfter i l s.zFlag, pFlag := pAfter i l s.pFlag })

theorem redirect_if (c : Bool) (a : Word) (s : State) :
    redirect (if c then some a else none) s = if c then taken a s else s := by
  cases c <;> rfl

theorem executeAct_eq (i : Instr) (l : Latch) (s : State) :
    executeAct i l s = (divideFault i l).elim (.next (afterExecute i l s)) (raise · s) := by
  cases i
  case div =>
    simp only [executeAct, divide, divideFault]
    split
    · rfl
    split <;> rfl
  case bz | bnz | bp | bnp =>
    exact congrArg (fun u => (.next (toMemory l none u) : Res)) (redirect_if _ _ s).symm
  all_goals rfl

/-! #### Memory (spec/43_load_store.md) -/

/-- The kinds that write data memory. -/
def isStore : Instr → Bool
  | .store _ _ _ | .sti _ _ _ => true
  | _ => false

/-- The latch Memory hands to `W`, for the data memory it reads (R121). -/
def loaded (i : Instr) (l : Latch) (m : Memory) : Latch :=
  if isLoad i then { l with result := some (m.read l.addr.toNat) } else l

/-- Data memory after Memory (R121). -/
def stored (i : Instr) (l : Latch) (m : Memory) : Memory :=
  if isStore i then m.write l.addr.toNat l.rs1v else m

/-- What Memory publishes for the latch it hands on (R149). -/
def memoryTap (i : Instr) (l : Latch) : Option (Reg × Word) := i.rdOpt.map (·, l.res)

/-- The state Memory leaves when it does not raise. -/
def afterAccess (i : Instr) (l : Latch) (s : State) : State :=
  toWriteback (loaded i l s.mem) (memoryTap i (loaded i l s.mem))
    { s with mem := stored i l s.mem }

/-- Memory raises: the kind accesses memory, and not in bounds (R75, R253). -/
def accessFaults (i : Instr) (l : Latch) (size : Nat) : Bool :=
  accessesMemory i && !inRange size l.addr

theorem State.inBounds_eq (s : State) (a : Word) : s.inBounds a = inRange s.params.dataMemWords a := rfl

theorem memoryAct_eq (i : Instr) (l : Latch) (s : State) :
    memoryAct i l s = if accessFaults i l s.params.dataMemWords
      then raise (.memoryOutOfBounds l.pc l.addr) s else .next (afterAccess i l s) := by
  cases i
  case load rd _ _ | ldi rd _ _ =>
    rcases loadWord_cases rd l s with ⟨h, e⟩ | ⟨h, e⟩ <;>
      simp only [memoryAct, e, accessFaults, accessesMemory, ← State.inBounds_eq, h] <;> rfl
  case store | sti =>
    rcases storeWord_cases l s with ⟨h, e⟩ | ⟨h, e⟩ <;>
      simp only [memoryAct, e, accessFaults, accessesMemory, ← State.inBounds_eq, h] <;> rfl
  all_goals rfl

/-! #### Writeback (spec/40_pipeline_engine.md R127) -/

/-- The register file after Writeback: the result to `rd`, then the next base to the base register. -/
def retiredRegs (i : Instr) (l : Latch) (regs : Vector Word 16) : Vector Word 16 :=
  match i with
  | .ldi rd rs1 _ => (regs.set rd l.res).set rs1 l.nextBase
  | .sti _ rs2 _ => regs.set rs2 l.nextBase
  | i => i.rdOpt.elim regs fun rd => regs.set rd l.res

/-- The busy bits after Writeback: every destination is free. -/
def freed (ds : List Reg) (busy : Vector Bool 16) : Vector Bool 16 :=
  ds.foldl (fun (b : Vector Bool 16) (d : Reg) => b.set d false) busy

/-- The state Writeback leaves. -/
def afterWriteback (i : Instr) (l : Latch) (s : State) : State :=
  { s with
    regs := retiredRegs i l s.regs
    busy := freed (dests i) s.busy
    retired := s.retired + 1
    latW := none
    haltedNow := s.haltedNow || decide (i = .halt) }

theorem writebackAct_eq (i : Instr) (l : Latch) (s : State) :
    writebackAct i l s = .next (afterWriteback i l s) := by
  cases i <;>
    simp [writebackAct, retireResult, retireIndexedLoad, retireBase, retireNothing, retireHalt,
      retire, commit, State.setReg, State.setBusy, afterWriteback, retiredRegs, freed, dests,
      Instr.rdOpt]

end Sys2Proof.Machine

namespace Sys2Proof.Machine

/-! ### Arithmetic on words (spec/42_alu_and_compare.md R171, R172) -/

theorem subWords_eq (a b : Word) : subWords a b = a - b :=
  BitVec.eq_of_toInt_eq (by simp [subWords, wrap32, BitVec.toInt_sub, BitVec.toInt_ofInt])

theorem effAddr_eq (base imm : Word) : effAddr base imm = base + imm := addWords_eq base imm

theorem postIncrement_eq (base : Word) : postIncrement base = base + 4 := addWords_eq base 4

theorem sign_mul_natCast_div (m n : Nat) :
    (m : Int).sign * (n : Int).sign * ((m : Int) / n) = (m : Int) / n := by
  rcases m.eq_zero_or_pos with rfl | hm
  · simp
  rcases n.eq_zero_or_pos with rfl | hn
  · simp
  simp [Int.sign_natCast_of_ne_zero, Nat.ne_of_gt hm, Nat.ne_of_gt hn]

/-- The spec's `quot` is division rounded toward zero (R172): both negate with either operand. -/
theorem sign_mul_natAbs_div (a b : Int) :
    a.sign * b.sign * ((a.natAbs / b.natAbs : Nat) : Int) = a.tdiv b := by
  obtain ⟨m, rfl | rfl⟩ := a.eq_nat_or_neg <;> obtain ⟨n, rfl | rfl⟩ := b.eq_nat_or_neg <;>
    simp [sign_mul_natCast_div]

/-- The quotient is exact but for the overflowing operands (R178, decision D16). -/
theorem quotWords_toInt {a b : Word} (h : ¬ (a.toInt = -2 ^ 31 ∧ b.toInt = -1)) :
    (quotWords a b).toInt = a.toInt.tdiv b.toInt := by
  have hne : a ≠ BitVec.intMin 32 ∨ b ≠ -1#32 := by
    by_contra hc
    simp only [not_or, not_not] at hc
    obtain ⟨rfl, rfl⟩ := hc
    exact h (by decide)
  rw [← BitVec.toInt_sdiv_of_ne_or_ne a b hne, BitVec.toInt_sdiv, quotWords, sign_mul_natAbs_div,
    wrap32, BitVec.toInt_ofInt]

/-- Settles O25: each of the five is a sum, difference or product of words. -/
theorem overflowWraps : Obligations.OverflowWraps := by
  unfold Obligations.OverflowWraps
  exact fun a b => ⟨addWords_eq a b, subWords_eq a b, mulWords_eq a b, effAddr_eq a b,
    postIncrement_eq a⟩

theorem eq_zero_iff_toInt {a : Word} : a = 0 ↔ a.toInt = 0 := by
  rw [← BitVec.toInt_inj]; rfl

theorem eq_minWord_iff_toInt {a : Word} : a = minWord ↔ a.toInt = -2 ^ 31 := by
  rw [← BitVec.toInt_inj]; rfl

theorem eq_minusOne_iff_toInt {a : Word} : a = minusOne ↔ a.toInt = -1 := by
  rw [← BitVec.toInt_inj]; rfl

/-! ### The rules of the remaining kinds, stage by stage -/

open Claim

theorem exec_execute_eq {i : Instr} {s : State} {l : Latch} (hstage : s.stage = .execute)
    (hE : s.latE = some l) :
    exec i s = (divideFault i l).elim (.next (afterExecute i l s)) (raise · s) := by
  rw [exec_execute i s hstage, hE, ← executeAct_eq]
  rfl

theorem exec_memory_eq {i : Instr} {s : State} {l : Latch} (hstage : s.stage = .memory)
    (hM : s.latM = some l) :
    exec i s = if accessFaults i l s.params.dataMemWords
      then raise (.memoryOutOfBounds l.pc l.addr) s else .next (afterAccess i l s) := by
  rw [exec_memory i s hstage, hM, ← memoryAct_eq]
  rfl

theorem exec_writeback_eq {i : Instr} {s : State} {l : Latch} (hstage : s.stage = .writeback)
    (hW : s.latW = some l) : exec i s = .next (afterWriteback i l s) := by
  rw [exec_writeback i s hstage, hW, ← writebackAct_eq]
  rfl

/-- The condition of DIV in the terms of R178. -/
theorem divideFault_div (rd rs1 rs2 : Reg) (l : Latch) :
    divideFault (.div rd rs1 rs2) l =
      if l.rs2v.toInt = 0 then some (.divideByZero l.pc)
      else if l.rs1v.toInt = -2 ^ 31 ∧ l.rs2v.toInt = -1 then some (.divideOverflow l.pc)
      else none := by
  simp only [divideFault, eq_zero_iff_toInt, eq_minWord_iff_toInt, eq_minusOne_iff_toInt]

/-- Settles O26: the two fatal cases are the branches of R178, and outside the overflowing one the
wrapped quotient is the exact one. -/
theorem divRule : Obligations.DivRule := by
  unfold Obligations.DivRule
  intro rd rs1 rs2
  refine ⟨fetches _, ⟨rfl, rfl⟩, ?execute, passesThrough_of_passResult rfl,
    writesBack_of_retireResult rfl⟩
  intro s l a b hstage hE ha hb
  rw [exec_execute_eq hstage hE, divideFault_div, Latch.rs1v_of_some ha, Latch.rs2v_of_some hb]
  refine ⟨fun h0 => ?zero, fun hmin hone => ?overflow, fun h0 hov => ?quotient⟩
  case zero => rw [if_pos h0]; rfl
  case overflow => rw [if_neg (by omega), if_pos ⟨hmin, hone⟩]; rfl
  case quotient =>
    refine ⟨quotWords a b, quotWords_toInt hov, ?_⟩
    rw [if_neg h0, if_neg hov, ← Latch.rs1v_of_some ha, ← Latch.rs2v_of_some hb]
    rfl

/-- Settles O29: LOADCONST shares the stages of the result-producing kinds and publishes its
immediate. -/
theorem loadconstRule : Obligations.LoadconstRule := by
  unfold Obligations.LoadconstRule
  exact fun rd imm =>
    resultKind_of_publishResult ⟨rfl, rfl⟩ (fun _ _ _ _ _ => rfl) rfl rfl

/-- Settles O30: words are equal exactly if their signed values are. -/
theorem compareRule : Obligations.CompareRule := by
  unfold Obligations.CompareRule
  intro rs1 rs2
  refine ⟨fetches _, ⟨rfl, rfl⟩, ?execute, passesThrough_of_passNothing rfl,
    writesNothingBack_of_retireNothing rfl⟩
  intro s l a b hstage hE ha hb
  rw [exec_execute_eq hstage hE, ← Latch.rs1v_of_some ha, ← Latch.rs2v_of_some hb]
  simp only [BitVec.toInt_inj]
  rfl

/-! #### Loads and stores -/

theorem inRange_iff {size : Nat} {a : Word} :
    inRange size a = true ↔ 0 ≤ a.toInt ∧ a.toInt < (size : Int) := by
  simp [inRange]

theorem Latch.addr_of_some {l : Latch} {ea : Word} (h : l.memAddr = some ea) : l.addr = ea := by
  simp [Latch.addr, h]

theorem readsWord_of_isLoad {i : Instr} {rd : Reg} (hload : isLoad i = true)
    (hrd : i.rdOpt = some rd) : ReadsWord i rd := by
  intro s l ea hstage hM haddr
  have hacc : accessesMemory i = true := by cases i <;> simp_all [isLoad, accessesMemory]
  have hstore : isStore i = false := by cases i <;> simp_all [isLoad, isStore]
  rw [exec_memory_eq hstage hM]
  simp only [accessFaults, hacc, Bool.true_and, Bool.not_eq_true', ← Bool.not_eq_true,
    Latch.addr_of_some haddr, inRange_iff]
  by_cases hin : 0 ≤ ea.toInt ∧ ea.toInt < (s.params.dataMemWords : Int)
  · rw [if_neg (not_not_intro hin), if_pos hin]
    simp [afterAccess, loaded, stored, memoryTap, hload, hstore, hrd, Latch.addr_of_some haddr,
      toWriteback, Latch.res]
  · rw [if_pos hin, if_neg hin]
    rfl

theorem writesWord_of_isStore {i : Instr} (hstore : isStore i = true) : WritesWord i := by
  intro s l ea v hstage hM haddr hv hmem
  have hacc : accessesMemory i = true := by cases i <;> simp_all [isStore, accessesMemory]
  have hload : isLoad i = false := by cases i <;> simp_all [isLoad, isStore]
  have hrd : i.rdOpt = none := by cases i <;> simp_all [isStore, Instr.rdOpt]
  rw [exec_memory_eq hstage hM]
  simp only [accessFaults, hacc, Bool.true_and, Bool.not_eq_true', ← Bool.not_eq_true,
    Latch.addr_of_some haddr, inRange_iff]
  refine ⟨fun hin => ⟨_, if_neg (not_not_intro hin), fun a => ?word, ?frame⟩,
    fun hout => if_pos hout⟩
  case word =>
    simp only [State.word, afterAccess, toWriteback, stored, hstore, if_true,
      Latch.addr_of_some haddr, Latch.rs1v_of_some hv]
    rw [Memory.read_write 0 _ _ hmem]
    simp only [← BitVec.toNat_inj, eq_comm]
  case frame => simp [afterAccess, loaded, memoryTap, hload, hrd, toWriteback]

/-- Settles O31: the index from the base, then the shared read and write-back. -/
theorem loadRule : Obligations.LoadRule := by
  unfold Obligations.LoadRule
  intro rd rs1 imm
  refine ⟨fetches _, ⟨rfl, rfl⟩, ?execute, readsWord_of_isLoad rfl rfl,
    writesBack_of_retireResult rfl⟩
  intro s l a hstage hE ha
  rw [exec_execute_eq hstage hE, ← Latch.rs1v_of_some ha]
  rfl

/-- Settles O32: the index from the base, the shared write, and no register. -/
theorem storeRule : Obligations.StoreRule := by
  unfold Obligations.StoreRule
  intro rs1 rs2 imm
  refine ⟨fetches _, ⟨rfl, rfl⟩, ?execute, writesWord_of_isStore rfl,
    writesNothingBack_of_retireNothing rfl⟩
  intro s l b hstage hE hb
  rw [exec_execute_eq hstage hE, ← Latch.rs2v_of_some hb]
  rfl

theorem Latch.res_of_some {l : Latch} {v : Word} (h : l.result = some v) : l.res = v := by
  simp [Latch.res, h]

theorem Latch.nextBase_of_some {l : Latch} {v : Word} (h : l.bypass = some v) : l.nextBase = v := by
  simp [Latch.nextBase, h]

/-- Settles O33: the next base goes with the index, and both registers are written in the order of
R127. -/
theorem ldiRule : Obligations.LdiRule := by
  unfold Obligations.LdiRule
  intro rd rs1 imm
  refine ⟨fetches _, ⟨rfl, rfl⟩, ?execute, readsWord_of_isLoad rfl rfl, ?writeback⟩
  case execute =>
    intro s l a hstage hE ha
    rw [exec_execute_eq hstage hE, ← Latch.rs1v_of_some ha]
    rfl
  case writeback =>
    intro s l v nb hstage hW hv hnb
    rw [exec_writeback_eq hstage hW, ← Latch.res_of_some hv, ← Latch.nextBase_of_some hnb]
    simp [afterWriteback, retiredRegs, freed, dests]

/-- Settles O34: as for STORE, with the next base on the tap and written to the base register. -/
theorem stiRule : Obligations.StiRule := by
  unfold Obligations.StiRule
  intro rs1 rs2 imm
  refine ⟨fetches _, ⟨rfl, rfl⟩, ?execute, writesWord_of_isStore rfl, ?writeback⟩
  case execute =>
    intro s l b hstage hE hb
    rw [exec_execute_eq hstage hE, ← Latch.rs2v_of_some hb]
    rfl
  case writeback =>
    intro s l nb hstage hW hnb
    rw [exec_writeback_eq hstage hW, ← Latch.nextBase_of_some hnb]
    simp [afterWriteback, retiredRegs, freed, dests]

/-! #### Control transfer -/

/-- The claims' words for a taken transfer are the model's. -/
theorem taken_eq_redirected (target : Word) (s : State) : taken target s = Redirected s target := by
  unfold taken squash Redirected instrIn
  cases hD : s.latD with
  | none => simp
  | some l => simp

/-- What is left to show of a conditional branch: where it goes, and when. -/
theorem branchKind_of_branchIf {i : Instr} {imm : Word} {holds : State → Bool}
    (hdecodes : Decodes i [] [])
    (hexecute : ∀ l s, executeAct i l s = branchIf (holds s) imm l s)
    (hmemory : memoryAct i = passNothing) (hwriteback : writebackAct i = fun _ => retireNothing) :
    BranchKind i imm holds := by
  refine ⟨fetches i, hdecodes, ?execute, passesThrough_of_passNothing hmemory,
    writesNothingBack_of_retireNothing hwriteback⟩
  intro s l hstage hE
  rw [exec_execute i s hstage, hE]
  simp only [onLatch, hexecute, branchIf, taken_eq_redirected]
  rfl

/-- Settles O35: the four kinds differ in their predicate of the flags only. -/
theorem conditionalBranchRules : Obligations.ConditionalBranchRules := by
  unfold Obligations.ConditionalBranchRules
  intro imm
  refine ⟨?bz, ?bnz, ?bp, ?bnp⟩
  all_goals exact branchKind_of_branchIf ⟨rfl, rfl⟩ (fun _ _ => rfl) rfl rfl

/-- Settles O36: as for a branch that is always taken, to the resolved source. -/
theorem jumpRule : Obligations.JumpRule := by
  unfold Obligations.JumpRule
  intro rs1 imm
  refine ⟨fetches _, ⟨rfl, rfl⟩, ?execute, passesThrough_of_passNothing rfl,
    writesNothingBack_of_retireNothing rfl⟩
  intro s l a hstage hE ha
  rw [exec_execute _ s hstage, hE, ← Latch.rs1v_of_some ha, ← taken_eq_redirected]
  rfl

/-- Settles O37: HALT differs from NOP in the flag its Fetch sets and in the answer of its
Writeback. -/
theorem haltStages : Obligations.HaltStages := by
  unfold Obligations.HaltStages
  refine ⟨?fetch, ⟨rfl, rfl⟩, fun s l hstage hE => exec_execute_of_noAction rfl hstage hE,
    passesThrough_of_passNothing rfl, ?writeback⟩
  case fetch =>
    intro s hstage
    rw [exec_fetch .halt s hstage, if_pos rfl]
    rfl
  case writeback =>
    intro s l hstage hW
    rw [exec_writeback .halt s hstage, hW]
    rfl

end Sys2Proof.Machine

namespace Sys2Proof.Machine

/-! ### What an instruction can do in any stage

`exec` answers a next state in each stage, inside the frame of that stage. -/

theorem claim_isBusy_of_not_mem {ds : List Reg} {s s' : State} {o : Option Reg} {r : Reg}
    (h : claim ds s = (s', o)) (hr : r ∉ ds) : s'.isBusy r = s.isBusy r := by
  induction ds generalizing s with
  | nil => cases h; rfl
  | cons d ds ih =>
    have hne : d ≠ r := fun e => hr (e ▸ .head _)
    unfold claim at h
    split at h
    · cases h; rfl
    · rw [ih h fun hm => hr (.tail _ hm), State.isBusy_setBusy, if_neg hne]

/-- Everything Decode can do with any record, also an illegal one: it stalls, or claims some of the
destinations and then issues or raises (R140, R154). -/
theorem issue_next (rs1 rs2 : Option Reg) (ds : List Reg) (l : Latch) (s : State) :
    ∃ t, issue rs1 rs2 ds l s = .next t ∧ (∀ r, r ∉ ds → t.isBusy r = s.isBusy r) ∧
      (t.latD = s.latD ∨ t.latD = none) ∧
      (t.status = s.status ∨ ∃ r, t.status = .faulted (.invariantViolation l.pc r)) := by
  unfold issue
  split
  · split
    · exact ⟨s, rfl, fun _ _ => rfl, .inl rfl, .inl rfl⟩
    split <;> rename_i hc <;>
      have hbusy := fun r (hr : r ∉ ds) => claim_isBusy_of_not_mem hc hr <;>
        obtain ⟨b, rfl⟩ := claim_frame hc
    · exact ⟨_, rfl, hbusy, .inl rfl, .inr ⟨_, rfl⟩⟩
    · exact ⟨_, rfl, hbusy, .inr rfl, .inl rfl⟩
  · exact ⟨s, rfl, fun _ _ => rfl, .inl rfl, .inl rfl⟩

/-- Settles O39: stage by stage. -/
theorem everyInstructionAnswersNext : Obligations.EveryInstructionAnswersNext := by
  unfold Obligations.EveryInstructionAnswersNext
  intro i s
  have onLatch_next : ∀ {o : Option Latch} {act : Latch → State → Res},
      (∀ l, ∃ t, act l s = .next t) → ∃ t, onLatch o s act = .next t := fun {o} _ hact => by
    cases o with
    | none => exact ⟨s, rfl⟩
    | some l => exact hact l
  cases hstage : s.stage with
  | fetch =>
    rw [exec_fetch i s hstage]
    split <;> exact ⟨_, rfl⟩
  | decode =>
    rw [exec_decode i s hstage]
    exact onLatch_next fun l => (issue_next _ _ _ l s).imp fun _ h => h.1
  | execute =>
    rw [exec_execute i s hstage]
    refine onLatch_next fun l => ?_
    rw [executeAct_eq]
    cases divideFault i l <;> exact ⟨_, rfl⟩
  | memory =>
    rw [exec_memory i s hstage]
    refine onLatch_next fun l => ?_
    rw [memoryAct_eq]
    split <;> exact ⟨_, rfl⟩
  | writeback =>
    rw [exec_writeback i s hstage]
    exact onLatch_next fun l => ⟨_, writebackAct_eq i l s⟩

theorem onLatch_eq_next {o : Option Latch} {s t : State} {act : Latch → State → Res}
    (h : onLatch o s act = .next t) : (o = none ∧ t = s) ∨ ∃ l, o = some l ∧ act l s = .next t := by
  cases o with
  | none => cases h; exact .inl ⟨rfl, rfl⟩
  | some l => exact .inr ⟨l, rfl, h⟩

theorem fetched_frame (i : Instr) (s : State) (hstage : s.stage = .fetch) {t : State}
    (h : exec i s = .next t) : FetchFrame s t := by
  rw [exec_fetch i s hstage] at h
  split at h <;> cases h <;> exact ⟨rfl⟩

/-- The frame of an instruction is that of the stage it acts in. -/
theorem exec_frame {i : Instr} {s t : State} (h : exec i s = .next t) :
    (s.stage = .fetch ∧ FetchFrame s t) ∨ (s.stage = .decode ∧ DecodeFrame s t) ∨
    (s.stage = .execute ∧ ExecuteFrame s t) ∨ (s.stage = .memory ∧ MemoryFrame s t) ∨
    (s.stage = .writeback ∧ WritebackFrame s t) := by
  cases hstage : s.stage with
  | fetch => exact .inl ⟨rfl, fetched_frame i s hstage h⟩
  | decode =>
    rw [exec_decode i s hstage] at h
    rcases onLatch_eq_next h with ⟨_, rfl⟩ | ⟨l, _, hl⟩
    · exact .inr (.inl ⟨rfl, rfl, .inl rfl⟩)
    · exact .inr (.inl ⟨rfl, issue_frame hl⟩)
  | execute =>
    rw [exec_execute i s hstage] at h
    rcases onLatch_eq_next h with ⟨_, rfl⟩ | ⟨l, _, hl⟩
    · exact .inr (.inr (.inl ⟨rfl, rfl, .inl rfl⟩))
    · exact .inr (.inr (.inl ⟨rfl, executeAct_frame hl⟩))
  | memory =>
    rw [exec_memory i s hstage] at h
    rcases onLatch_eq_next h with ⟨_, rfl⟩ | ⟨l, _, hl⟩
    · exact .inr (.inr (.inr (.inl ⟨rfl, rfl, .inl rfl⟩)))
    · exact .inr (.inr (.inr (.inl ⟨rfl, memoryAct_frame hl⟩)))
  | writeback =>
    rw [exec_writeback i s hstage] at h
    rcases onLatch_eq_next h with ⟨_, rfl⟩ | ⟨l, _, hl⟩
    · exact .inr (.inr (.inr (.inr ⟨rfl, ⟨rfl⟩⟩)))
    · exact .inr (.inr (.inr (.inr ⟨rfl, writebackAct_frame hl⟩)))

/-! #### The register file (R23) -/

theorem getElem_set_reg {α : Type} (xs : Vector α 16) (r q : Reg) (v : α) :
    (xs.set r v)[q] = if r = q then v else xs[q] := by
  simp [Vector.getElem_set, Fin.ext_iff]

/-- Writeback leaves a register that is no destination. -/
theorem retiredRegs_of_not_mem {i : Instr} (l : Latch) (regs : Vector Word 16) {r : Reg}
    (hr : r ∉ dests i) : (retiredRegs i l regs)[r] = regs[r] := by
  cases i <;> simp_all [dests, retiredRegs, Instr.rdOpt, Fin.ext_iff, eq_comm]

theorem freed_getElem (ds : List Reg) (busy : Vector Bool 16) (r : Reg) :
    (freed ds busy)[r] = (busy[r] && !ds.contains r) := by
  induction ds generalizing busy with
  | nil => simp [freed]
  | cons d ds ih =>
    have hcons : freed (d :: ds) busy = freed ds (busy.set d false) := rfl
    rw [hcons, ih, getElem_set_reg]
    by_cases h : d = r
    · simp [h]
    · simp [h, Ne.symm h]

/-- Settles O40: the frames of the stages leave Decode's claims and Writeback to look at. -/
theorem registerFileFrame : Obligations.RegisterFileFrame := by
  unfold Obligations.RegisterFileFrame
  intro i s t h
  rcases exec_frame h with ⟨hst, hf⟩ | ⟨hst, hf⟩ | ⟨hst, hf⟩ | ⟨hst, hf⟩ | ⟨hst, _⟩
  case inr.inl =>
    have hregs : t.regs = s.regs := (congrArg State.regs hf.fields :)
    refine ⟨fun _ => hregs, fun _ hd => absurd hst hd, fun r hr => ⟨State.reg_congr hregs r, ?_⟩⟩
    rw [exec_decode i s hst] at h
    rcases onLatch_eq_next h with ⟨_, rfl⟩ | ⟨l, _, hl⟩
    · rfl
    · obtain ⟨u, hu, hbusy, _⟩ := issue_next i.rs1Opt i.rs2Opt (dests i) l s
      cases hu.symm.trans hl
      exact hbusy r hr
  case inr.inr.inr.inr =>
    refine ⟨fun hw => absurd hst hw, fun hw => absurd hst hw, fun r hr => ?_⟩
    rw [exec_writeback i s hst] at h
    rcases onLatch_eq_next h with ⟨_, rfl⟩ | ⟨l, _, hl⟩
    · exact ⟨rfl, rfl⟩
    · cases (writebackAct_eq i l s).symm.trans hl
      refine ⟨retiredRegs_of_not_mem l s.regs hr, ?_⟩
      exact (freed_getElem (dests i) s.busy r).trans (by simp [hr, State.isBusy])
  all_goals
    have hregs : t.regs = s.regs := (congrArg State.regs hf.fields :)
    have hbusy : t.busy = s.busy := (congrArg State.busy hf.fields :)
    exact ⟨fun _ => hregs, fun _ _ => hbusy,
      fun r _ => ⟨State.reg_congr hregs r, State.isBusy_congr hbusy r⟩⟩

/-! #### The flags (R28) -/

/-- The kinds that write no flag in Execute leave both as they are. -/
theorem afterExecute_keeps_flags {i : Instr} (hi : i.opcode ∉ [1, 2, 3, 4, 8, 9, 20]) (l : Latch)
    (s : State) :
    (afterExecute i l s).zFlag = s.zFlag ∧ (afterExecute i l s).pFlag = s.pFlag := by
  cases i <;> simp_all [Instr.opcode, afterExecute, zAfter, pAfter, setsFlags]

/-- Settles O41: no frame but Execute's has the flags, and there only the kinds named compute them. -/
theorem flagsWrittenOnlyByArithmeticAndCompare :
    Obligations.FlagsWrittenOnlyByArithmeticAndCompare := by
  unfold Obligations.FlagsWrittenOnlyByArithmeticAndCompare
  intro i s t h hkind
  rcases exec_frame h with ⟨_, hf⟩ | ⟨_, hf⟩ | ⟨hst, _⟩ | ⟨_, hf⟩ | ⟨_, hf⟩
  case inr.inr.inl =>
    have hi := hkind.resolve_left (not_not_intro hst)
    rw [exec_execute i s hst] at h
    rcases onLatch_eq_next h with ⟨_, rfl⟩ | ⟨l, _, hl⟩
    · exact ⟨rfl, rfl⟩
    · rw [executeAct_eq] at hl
      cases hdiv : divideFault i l <;> rw [hdiv] at hl <;> cases hl
      · exact afterExecute_keeps_flags hi l s
      · exact ⟨rfl, rfl⟩
  all_goals exact ⟨(congrArg State.zFlag hf.fields :), (congrArg State.pFlag hf.fields :)⟩

/-! #### Data memory (R42, R66) -/

theorem stored_of_not_store {i : Instr} (hi : i.opcode ∉ [11, 13]) (l : Latch) (m : Memory) :
    stored i l m = m := by
  cases i <;> simp_all [Instr.opcode, stored, isStore]

theorem stored_read_of_ne {i : Instr} {l : Latch} {m : Memory} {size : Nat}
    (hm : Memory.wf size m = true) {a : Word} (ha : a ≠ l.addr) :
    (stored i l m).read a.toNat = m.read a.toNat := by
  unfold stored
  split
  · rw [Memory.read_write 0 size m hm, if_neg fun e => ha (word_index_inj e.symm)]
  · rfl

/-- Settles O42: no frame but Memory's has data memory, and there `stored` says what is written. -/
theorem dataMemoryFrame : Obligations.DataMemoryFrame := by
  unfold Obligations.DataMemoryFrame
  intro i s t h
  rcases exec_frame h with ⟨hst, hf⟩ | ⟨hst, hf⟩ | ⟨hst, hf⟩ | ⟨hst, _⟩ | ⟨hst, hf⟩
  case inr.inr.inr.inl =>
    rw [exec_memory i s hst] at h
    rcases onLatch_eq_next h with ⟨_, rfl⟩ | ⟨l, hM, hl⟩
    · exact ⟨fun _ => rfl, fun _ _ _ _ _ _ => rfl⟩
    rw [memoryAct_eq] at hl
    split at hl <;> cases hl
    · exact ⟨fun _ => rfl, fun _ _ _ _ _ _ => rfl⟩
    · refine ⟨fun hkind => stored_of_not_store (hkind.resolve_left (not_not_intro hst)) l s.mem,
        fun _ hmem l' hl' a ha => ?_⟩
      obtain rfl : l = l' := Option.some.inj (hM.symm.trans hl')
      exact stored_read_of_ne hmem ha
  all_goals
    have hmem : t.mem = s.mem := (congrArg State.mem hf.fields :)
    exact ⟨fun _ => hmem, fun _ _ _ _ a _ => congrArg (Memory.read · a.toNat) hmem⟩

/-! #### The fatal conditions (R250) -/

theorem accessFaults_iff {i : Instr} {l : Latch} {size : Nat} :
    accessFaults i l size = true ↔
      i.opcode ∈ [10, 11, 12, 13] ∧ ¬ (0 ≤ l.addr.toInt ∧ l.addr.toInt < (size : Int)) := by
  rw [← inRange_iff]
  cases i <;> simp [accessFaults, accessesMemory, Instr.opcode]

theorem divideFault_eq_some {i : Instr} {l : Latch} {f : Fatal} (h : divideFault i l = some f) :
    i.opcode = 4 ∧ ((f = .divideByZero l.pc ∧ l.rs2v.toInt = 0) ∨
      (f = .divideOverflow l.pc ∧ l.rs1v.toInt = -2 ^ 31 ∧ l.rs2v.toInt = -1)) := by
  cases i
  case div =>
    rw [divideFault_div] at h
    split at h
    · cases h; exact ⟨rfl, .inl ⟨rfl, ‹_›⟩⟩
    split at h
    · cases h; exact ⟨rfl, .inr ⟨rfl, ‹_›⟩⟩
    · cases h
  all_goals cases h

/-- A legal record is never refused by Decode's own check (R154). -/
theorem issue_status_of_legal {i : Instr} (hi : i.legal = true) {l : Latch} {s t : State}
    (h : issue i.rs1Opt i.rs2Opt (dests i) l s = .next t) : t.status = s.status := by
  rcases issue_cases i.rs1Opt i.rs2Opt (dests i) l s (dests_nodup hi) with
    ⟨e, _⟩ | ⟨v1, v2, _, _, _, e⟩ <;> cases e.symm.trans h
  · rfl
  · obtain ⟨b, hb⟩ := markAll_eq (dests i) s
    simp [hb]

/-- Settles O43: the equations of Execute and Memory name the condition, and Decode raises only where
its claims meet. -/
theorem fatalConditionsComeFrom : Obligations.FatalConditionsComeFrom := by
  unfold Obligations.FatalConditionsComeFrom
  intro i s t f h hrun hfault
  have hne : t.status ≠ s.status := by rw [hfault, hrun]; exact Status.noConfusion
  rcases exec_frame h with ⟨_, hf⟩ | ⟨hst, _⟩ | ⟨hst, _⟩ | ⟨hst, _⟩ | ⟨_, hf⟩
  case inl | inr.inr.inr.inr => exact absurd (congrArg State.status hf.fields :) hne
  case inr.inl =>
    rw [exec_decode i s hst] at h
    rcases onLatch_eq_next h with ⟨_, rfl⟩ | ⟨l, hD, hl⟩
    · exact absurd rfl hne
    obtain ⟨u, hu, _, _, hstatus⟩ := issue_next i.rs1Opt i.rs2Opt (dests i) l s
    cases hu.symm.trans hl
    obtain ⟨r, hr⟩ := hstatus.resolve_left hne
    have hillegal : i.legal = false := by
      by_contra hc
      exact hne (issue_status_of_legal (by simpa using hc) hl)
    exact .inr (.inr ⟨hst, hillegal, l, r, hD, by simpa [hfault] using hr⟩)
  case inr.inr.inl =>
    rw [exec_execute i s hst] at h
    rcases onLatch_eq_next h with ⟨_, rfl⟩ | ⟨l, hE, hl⟩
    · exact absurd rfl hne
    rw [executeAct_eq] at hl
    cases hdiv : divideFault i l with
    | none =>
      rw [hdiv] at hl
      cases hl
      simp [afterExecute] at hne
    | some g =>
      rw [hdiv] at hl
      cases hl
      obtain rfl : g = f := by simpa using hfault
      obtain ⟨hop, hcond⟩ := divideFault_eq_some hdiv
      exact .inr (.inl ⟨hst, hop, l, hE, hcond⟩)
  case inr.inr.inr.inl =>
    rw [exec_memory i s hst] at h
    rcases onLatch_eq_next h with ⟨_, rfl⟩ | ⟨l, hM, hl⟩
    · exact absurd rfl hne
    rw [memoryAct_eq] at hl
    split at hl <;> rename_i hacc <;> cases hl
    · obtain ⟨hop, hout⟩ := accessFaults_iff.mp hacc
      exact .inl ⟨hst, hop, l, hM, by simpa using hfault.symm, hout⟩
    · exact absurd rfl hne

/-! ### Decode (R144, R153) -/

theorem issue_of_dest_busy (rs1 rs2 : Option Reg) {ds : List Reg} (l : Latch) {s : State}
    (h : ds.any s.isBusy = true) : issue rs1 rs2 ds l s = .next s := by
  unfold issue
  split
  · rw [if_pos h]
  · rfl

/-- Settles O20: Decode looks at the destinations whether or not the sources resolve. -/
theorem destinationStallChangesNothing : Obligations.DestinationStallChangesNothing := by
  unfold Obligations.DestinationStallChangesNothing
  intro i s r hst hr hbusy
  rw [exec_decode i s hst]
  cases s.latD with
  | none => rfl
  | some l => exact issue_of_dest_busy _ _ l (List.any_eq_true.mpr ⟨r, hr, hbusy⟩)

/-- Settles O22: Decode looks for a record before anything else. -/
theorem nofetchLatchRaises : Obligations.NofetchLatchRaises := by
  unfold Obligations.NofetchLatchRaises
  intro s l hD hi
  have e : decodeStage s = raise (.fetchOutOfImage l.pc) (s.enter .decode) := by
    simp [decodeStage, hD, onLatch, decodeLatch, hi]
  exact e

/-! ### Fetch (R26, R62, R115 to R119) -/

theorem fetchable_iff {s : State} {a : Word} : s.fetchable a = true ↔
    ∃ k : Nat, k < s.image.length ∧ a.toInt = s.params.pcBase.toInt + 4 * (k : Int) := by
  simp only [State.fetchable, Bool.and_eq_true, decide_eq_true_eq]
  simp only [Config.instrWidth, Nat.cast_ofNat]
  constructor
  · rintro ⟨⟨hnonneg, haligned⟩, hlt⟩
    exact ⟨((a.toInt - s.params.pcBase.toInt) / 4).toNat, by omega, by omega⟩
  · rintro ⟨k, hk, ha⟩
    omega

theorem imageIndex_eq {s : State} {a : Word} {k : Nat}
    (ha : a.toInt = s.params.pcBase.toInt + 4 * (k : Int)) : s.imageIndex a = k := by
  simp only [State.imageIndex, Config.instrWidth, Nat.cast_ofNat]
  omega

/-- Settles O15: a fetchable address determines its index. -/
theorem imageAddresses : Obligations.ImageAddresses := by
  unfold Obligations.ImageAddresses
  intro s a i
  constructor
  · intro h
    unfold State.imageAt at h
    split at h
    · rename_i hf
      obtain ⟨k, _, ha⟩ := fetchable_iff.mp hf
      exact ⟨k, imageIndex_eq ha ▸ h, ha⟩
    · cases h
  · rintro ⟨k, hk, ha⟩
    have hlt : k < s.image.length := (List.getElem?_eq_some_iff.mp hk).1
    rw [State.imageAt, if_pos (fetchable_iff.mpr ⟨k, hlt, ha⟩), imageIndex_eq ha, hk]

/-- Settles O16: the four ways Fetch acts, the fetch itself with the record at the pc. -/
theorem fetchStageActions : Obligations.FetchStageActions := by
  unfold Obligations.FetchStageActions
  intro s
  refine ⟨fun hsup => ?suppressed, fun hsup hD => ?held, fun hsup hD hhalt => ?stopped,
    fun hsup hD hhalt => ?fetch⟩
  case suppressed => simp [fetchStage, hsup, State.enter]
  case held => simp [fetchStage, hsup, Option.isSome_iff_ne_none.mpr hD, State.enter]
  case stopped => simp [fetchStage, hsup, hD, hhalt, State.enter]
  case fetch =>
    have e : fetchStage s = fetchAtPc (s.enter .fetch) := by simp [fetchStage, hsup, hD, hhalt]
    have himg : (s.enter .fetch).imageAt (s.enter .fetch).pc = s.imageAt s.pc := rfl
    rw [e, fetchAtPc_next _ (s.enter_stage .fetch), himg]
    by_cases hi : s.imageAt s.pc = some .halt
    · simp [hi, fill, State.enter, nextPc, Config.instrWidth]
    · simp [hi, fill, State.enter, nextPc, Config.instrWidth, hhalt]

/-! ### Reset (10_state.md section 9) -/

theorem imageAt_pcBase (s : State) : s.imageAt s.params.pcBase = s.image[0]? := by
  unfold State.imageAt
  rw [imageIndex_eq (k := 0) (by omega)]
  cases h : s.image with
  | nil => simp
  | cons i is =>
    rw [if_pos (fetchable_iff.mpr ⟨0, by simp [h], by omega⟩)]

/-- Settles O4: `State.initial` writes the values out, and the base address is entry 0's. -/
theorem stateBeforeFirstTick : Obligations.StateBeforeFirstTick := by
  unfold Obligations.StateBeforeFirstTick
  refine ⟨rfl, rfl, rfl, rfl, by decide, fun _ => rfl, fun p image regs mem => ?_⟩
  have hbusy : ∀ r, (State.initial p image regs mem).isBusy r = false := fun r => by
    simp [State.isBusy, State.initial]
  exact ⟨rfl, rfl, rfl, rfl, hbusy, rfl, rfl, rfl, rfl, rfl, rfl, rfl, rfl, rfl, rfl, rfl, rfl, rfl,
    rfl, rfl, imageAt_pcBase (State.initial p image regs mem)⟩

/-! ### The stages and the order of a tick (R110 to R114) -/

theorem writebackStage_of_latch {s : State} {l : Latch} {i : Instr} (hW : s.latW = some l)
    (hi : l.instr = some i) : writebackStage s = exec i (s.enter .writeback) := by
  simp [writebackStage, runLatch, hW, hi]

theorem memoryStage_of_latch {s : State} {l : Latch} {i : Instr} (hM : s.latM = some l)
    (hi : l.instr = some i) : memoryStage s = exec i (s.enter .memory) := by
  simp [memoryStage, runLatch, hM, hi]

theorem executeStage_of_latch {s : State} {l : Latch} {i : Instr} (hE : s.latE = some l)
    (hi : l.instr = some i) : executeStage s = exec i (s.enter .execute) := by
  simp [executeStage, runLatch, hE, hi]

theorem decodeStage_of_latch {s : State} {l : Latch} {i : Instr} (hD : s.latD = some l)
    (hi : l.instr = some i) : decodeStage s = exec i (s.enter .decode) := by
  simp [decodeStage, onLatch, decodeLatch, hD, hi]

theorem writebackStage_of_empty {s : State} (hW : s.latW = none) :
    writebackStage s = .next (s.enter .writeback) := by
  simp [writebackStage, runLatch, hW]

theorem memoryStage_of_empty {s : State} (hM : s.latM = none) :
    memoryStage s = .next (s.enter .memory) := by
  simp [memoryStage, runLatch, hM]

theorem executeStage_of_empty {s : State} (hE : s.latE = none) :
    executeStage s = .next (s.enter .execute) := by
  simp [executeStage, runLatch, hE]

theorem decodeStage_of_empty {s : State} (hD : s.latD = none) :
    decodeStage s = .next (s.enter .decode) := by
  simp [decodeStage, onLatch, hD]

/-- Settles O8: entering a stage clears its tap, and an occupied latch runs its instruction. -/
theorem stageRunsItsLatch : Obligations.StageRunsItsLatch := by
  unfold Obligations.StageRunsItsLatch
  exact fun s l i hi =>
    ⟨(writebackStage_of_latch · hi), (memoryStage_of_latch · hi), (executeStage_of_latch · hi),
      (decodeStage_of_latch · hi), writebackStage_of_empty, memoryStage_of_empty,
      executeStage_of_empty, decodeStage_of_empty⟩

/-- Settles O6: the definition of a tick, and both branches of `andThen`. -/
theorem tickEvaluatesStagesInOrder : Obligations.TickEvaluatesStagesInOrder := by
  unfold Obligations.TickEvaluatesStagesInOrder
  refine ⟨fun s hs => ?_, fun s => rfl, fun s f => andThen_of_running, fun s f => andThen_of_stopped⟩
  simp [step, hs, tick, frontHalf]

/-- No state makes `f` refuse. -/
def NeverRefuses (f : State → Res) : Prop := ∀ s r, f s ≠ .refused r

theorem andThen_not_refused {r : Res} {f : State → Res} (hr : ∀ q, r ≠ .refused q)
    (hf : NeverRefuses f) (q : Refusal) : andThen r f ≠ .refused q := by
  cases r with
  | next s =>
    by_cases hs : s.status = .running
    · rw [andThen_of_running hs]; exact hf s q
    · rw [andThen_of_stopped hs]; simp
  | fault e => simp [andThen]
  | refused q' => exact absurd rfl (hr q')

theorem exec_not_refused (i : Instr) : NeverRefuses (exec i) := by
  intro s r
  obtain ⟨t, ht⟩ := everyInstructionAnswersNext i s
  simp [ht]

theorem runLatch_not_refused (st : Stage) (o : Option Latch) : NeverRefuses (runLatch st o) := by
  intro s r
  unfold runLatch
  split
  · simp
  split
  · exact exec_not_refused _ s r
  · simp

theorem writebackStage_not_refused : NeverRefuses writebackStage := fun _ =>
  runLatch_not_refused _ _ _

theorem memoryStage_not_refused : NeverRefuses memoryStage := fun _ => runLatch_not_refused _ _ _

theorem executeStage_not_refused : NeverRefuses executeStage := fun _ => runLatch_not_refused _ _ _

theorem decodeStage_not_refused : NeverRefuses decodeStage := by
  intro s r
  unfold decodeStage onLatch
  split
  · simp
  · unfold decodeLatch
    split
    · exact exec_not_refused _ _ r
    · simp [raise]

theorem fetchStage_next (s : State) : ∃ t, fetchStage s = .next t := by
  rcases fetchStage_cases s with ⟨_, e⟩ | ⟨_, _, e⟩ | ⟨_, _, _, e⟩ | ⟨_, _, _, e⟩
  case inr.inr.inr =>
    rw [fetchAtPc_next _ (s.enter_stage .fetch)] at e
    exact ⟨_, e⟩
  all_goals exact ⟨_, e⟩

theorem fetchStage_not_refused : NeverRefuses fetchStage := by
  intro s r
  obtain ⟨t, ht⟩ := fetchStage_next s
  simp [ht]

/-- Settles O9: a running machine's stages never refuse, so only a stopped one's step does. -/
theorem noTickAfterStop : Obligations.NoTickAfterStop := by
  unfold Obligations.NoTickAfterStop
  refine fun s => ⟨fun hs => by simp [step, hs], fun f hs => by simp [step, hs], fun hs q => ?_⟩
  have hstep : step s = tick s := by simp [step, hs]
  have hmemory := andThen_not_refused (writebackStage_not_refused { s with haltedNow := false })
    memoryStage_not_refused
  have hexecute := andThen_not_refused hmemory executeStage_not_refused
  have hdecode := andThen_not_refused hexecute decodeStage_not_refused
  have hfetch := andThen_not_refused hdecode fetchStage_not_refused
  rw [hstep]
  exact andThen_not_refused hfetch (fun _ _ => by simp [endTick]) q

end Sys2Proof.Machine

namespace Sys2Proof.Machine

/-! ### Every way a stage can answer a next state

One inversion per stage, by the latch it finds. -/

theorem runLatch_next_instr {st : Stage} {o : Option Latch} {s t : State}
    (h : runLatch st o s = .next t) :
    (o = none ∧ t = s) ∨ ∃ l i, o = some l ∧ l.instr = some i ∧ exec i s = .next t := by
  unfold runLatch at h
  split at h
  · cases h; exact .inl ⟨rfl, rfl⟩
  · split at h
    · exact .inr ⟨_, _, rfl, ‹_›, h⟩
    · cases h

theorem writebackStage_next {s t : State} (h : writebackStage s = .next t) :
    (s.latW = none ∧ t = s.enter .writeback) ∨
    ∃ l i, s.latW = some l ∧ l.instr = some i ∧ t = afterWriteback i l (s.enter .writeback) := by
  rcases runLatch_next_instr h with ⟨hW, ht⟩ | ⟨l, i, hW, hi, he⟩
  · exact .inl ⟨hW, ht⟩
  · have hW' : (s.enter .writeback).latW = some l := hW
    cases (exec_writeback_eq rfl hW').symm.trans he
    exact .inr ⟨l, i, hW, hi, rfl⟩

theorem memoryStage_next {s t : State} (h : memoryStage s = .next t) :
    (s.latM = none ∧ t = s.enter .memory) ∨
    ∃ l i, s.latM = some l ∧ l.instr = some i ∧
      ((accessFaults i l s.params.dataMemWords = true ∧
          t = { s.enter .memory with status := .faulted (.memoryOutOfBounds l.pc l.addr) }) ∨
        (accessFaults i l s.params.dataMemWords = false ∧ t = afterAccess i l (s.enter .memory))) := by
  rcases runLatch_next_instr h with ⟨hM, ht⟩ | ⟨l, i, hM, hi, he⟩
  · exact .inl ⟨hM, ht⟩
  · have hM' : (s.enter .memory).latM = some l := hM
    rw [exec_memory_eq rfl hM'] at he
    refine .inr ⟨l, i, hM, hi, ?_⟩
    split at he <;> rename_i hacc <;> cases he
    · exact .inl ⟨hacc, rfl⟩
    · exact .inr ⟨by simpa using hacc, rfl⟩

theorem executeStage_next {s t : State} (h : executeStage s = .next t) :
    (s.latE = none ∧ t = s.enter .execute) ∨
    ∃ l i, s.latE = some l ∧ l.instr = some i ∧
      ((∃ f, divideFault i l = some f ∧ t = { s.enter .execute with status := .faulted f }) ∨
        (divideFault i l = none ∧ t = afterExecute i l (s.enter .execute))) := by
  rcases runLatch_next_instr h with ⟨hE, ht⟩ | ⟨l, i, hE, hi, he⟩
  · exact .inl ⟨hE, ht⟩
  · have hE' : (s.enter .execute).latE = some l := hE
    rw [exec_execute_eq rfl hE'] at he
    refine .inr ⟨l, i, hE, hi, ?_⟩
    cases hdiv : divideFault i l with
    | none => rw [hdiv] at he; cases he; exact .inr ⟨rfl, rfl⟩
    | some f => rw [hdiv] at he; cases he; exact .inl ⟨f, rfl, rfl⟩

theorem decodeStage_next {s t : State} (h : decodeStage s = .next t) :
    (s.latD = none ∧ t = s.enter .decode) ∨
    (∃ l, s.latD = some l ∧ l.instr = none ∧
      t = { s.enter .decode with status := .faulted (.fetchOutOfImage l.pc) }) ∨
    ∃ l i, s.latD = some l ∧ l.instr = some i ∧
      issue i.rs1Opt i.rs2Opt (dests i) l (s.enter .decode) = .next t := by
  unfold decodeStage at h
  rcases onLatch_eq_next h with ⟨hD, ht⟩ | ⟨l, hD, hl⟩
  · exact .inl ⟨hD, ht⟩
  · cases hi : l.instr with
    | none =>
      simp only [decodeLatch, hi] at hl
      cases hl
      exact .inr (.inl ⟨l, hD, hi, rfl⟩)
    | some i =>
      have hD' : (s.enter .decode).latD = some l := hD
      simp only [decodeLatch, hi] at hl
      rw [exec_decode i _ rfl, hD'] at hl
      exact .inr (.inr ⟨l, i, hD, hi, hl⟩)

/-! ### Every way a tick can end (R111, R255) -/

/-- The five stages of a tick. -/
def allStages (s : State) : Res := andThen (andThen (frontHalf s) decodeStage) fetchStage

theorem allStages_keeps {α : Type} {field : State → α} (hM : Keeps field memoryStage)
    (hE : Keeps field executeStage) (hD : Keeps field decodeStage) (hF : Keeps field fetchStage)
    {s f : State} (h : allStages s = .next f) :
    ∃ w, writebackStage { s with haltedNow := false } = .next w ∧ field f = field w := by
  obtain ⟨d, hd, hf⟩ := andThen_keeps hF h
  obtain ⟨e, he, hd'⟩ := andThen_keeps hD hd
  obtain ⟨m, hm, he'⟩ := andThen_keeps hE he
  obtain ⟨w, hw, hm'⟩ := andThen_keeps hM hm
  exact ⟨w, hw, by rw [hf, hd', he', hm']⟩

theorem allStages_preserves {P : State → Prop} (hW : Preserves P writebackStage)
    (hM : Preserves P memoryStage) (hE : Preserves P executeStage) (hD : Preserves P decodeStage)
    (hF : Preserves P fetchStage) {s f : State} (h : allStages s = .next f)
    (hs : P { s with haltedNow := false }) : P f :=
  andThen_preserves hF (andThen_preserves hD (andThen_preserves hE
    (andThen_preserves hM fun _ hw => hW hw hs))) f h

/-- The fields no stage has in its frame. -/
def State.fixedFields (s : State) : Params × List Instr × Nat := (s.params, s.image, s.cycles)

theorem writebackStage_keeps_fixedFields : Keeps State.fixedFields writebackStage := fun _ _ h =>
  (congrArg State.fixedFields (writebackStage_frame h).fields :)

theorem memoryStage_keeps_fixedFields : Keeps State.fixedFields memoryStage := fun _ _ h =>
  (congrArg State.fixedFields (memoryStage_frame h).fields :)

theorem executeStage_keeps_fixedFields : Keeps State.fixedFields executeStage := fun _ _ h =>
  (congrArg State.fixedFields (executeStage_frame h).fields :)

theorem decodeStage_keeps_fixedFields : Keeps State.fixedFields decodeStage := fun _ _ h =>
  (congrArg State.fixedFields (decodeStage_frame h).fields :)

theorem fetchStage_keeps_fixedFields : Keeps State.fixedFields fetchStage := fun _ _ h =>
  (congrArg State.fixedFields (fetchStage_frame h).fields :)

theorem allStages_fixedFields {s f : State} (h : allStages s = .next f) :
    f.params = s.params ∧ f.image = s.image ∧ f.cycles = s.cycles := by
  obtain ⟨w, hw, hf⟩ := allStages_keeps memoryStage_keeps_fixedFields executeStage_keeps_fixedFields
    decodeStage_keeps_fixedFields fetchStage_keeps_fixedFields h
  have hfields := hf.trans (writebackStage_keeps_fixedFields hw)
  simpa [State.fixedFields] using hfields

/-- A stage does not halt the machine: only the end of a tick does (R111). -/
def NotHalted (s : State) : Prop := s.status ≠ .halted

theorem writebackStage_preserves_notHalted : Preserves NotHalted writebackStage := fun _ _ h hs =>
  (congrArg State.status (writebackStage_frame h).fields :).trans_ne hs

theorem memoryStage_preserves_notHalted : Preserves NotHalted memoryStage := fun _ _ h hs => by
  rcases (memoryStage_frame h).status with e | ⟨_, _, e⟩ <;> simp_all [NotHalted]

theorem executeStage_preserves_notHalted : Preserves NotHalted executeStage := fun _ _ h hs => by
  rcases (executeStage_frame h).status with e | ⟨_, e | e⟩ <;> simp_all [NotHalted]

theorem decodeStage_preserves_notHalted : Preserves NotHalted decodeStage := fun _ _ h hs => by
  rcases (decodeStage_frame h).status with e | ⟨_, e | ⟨_, e⟩⟩ <;> simp_all [NotHalted]

theorem fetchStage_preserves_notHalted : Preserves NotHalted fetchStage := fun _ _ h hs =>
  (congrArg State.status (fetchStage_frame h).fields :).trans_ne hs

/-- The end of a tick that completes, as a state. -/
def ended (s : State) : State :=
  { s with cycles := s.cycles + 1, status := if s.haltedNow then .halted else .running }

theorem ended_safe (s : State) : (ended s).safe = true := by
  cases h : s.haltedNow <;> simp [ended, State.safe, h]

/-- A step runs the stages and then completes, or is ended by a fatal condition of one of them. -/
theorem step_ends {s t : State} (h : step s = .next t) :
    ∃ f, allStages s = .next f ∧
      ((f.status = .running ∧ t = ended f ∧ t.safe = true) ∨ (t = f ∧ t.safe = false)) := by
  obtain ⟨hs, ht⟩ := step_next h
  rcases andThen_next ht with ⟨hf, hstop⟩ | ⟨f, hf, hrun, hend⟩
  · have hhalt : NotHalted t := allStages_preserves writebackStage_preserves_notHalted
      memoryStage_preserves_notHalted executeStage_preserves_notHalted
      decodeStage_preserves_notHalted fetchStage_preserves_notHalted hf (by simp [NotHalted, hs])
    refine ⟨t, hf, .inr ⟨rfl, ?_⟩⟩
    unfold State.safe
    split
    · rfl
    · exact absurd ‹_› hhalt
    · exact absurd ‹_› hstop
  · cases hend
    exact ⟨f, hf, .inl ⟨hrun, rfl, ended_safe f⟩⟩

/-- Settles O10: no stage has the counter in its frame, and the end of a tick counts. -/
theorem cyclesCountCompletedTicks : Obligations.CyclesCountCompletedTicks := by
  unfold Obligations.CyclesCountCompletedTicks
  intro s t h
  obtain ⟨f, hf, hend⟩ := step_ends h
  obtain ⟨_, _, hcycles⟩ := allStages_fixedFields hf
  rcases hend with ⟨_, rfl, hsafe⟩ | ⟨rfl, hsafe⟩
  · rw [if_pos hsafe, ← hcycles]
    rfl
  · simp [hsafe, hcycles]

/-- Settles O13: no stage has the image or the parameters in its frame. -/
theorem imageAndParametersNeverChange : Obligations.ImageAndParametersNeverChange := by
  unfold Obligations.ImageAndParametersNeverChange
  intro s t h
  obtain ⟨f, hf, hend⟩ := step_ends h
  obtain ⟨hparams, himage, _⟩ := allStages_fixedFields hf
  rcases hend with ⟨_, rfl, _⟩ | ⟨rfl, _⟩ <;> exact ⟨himage, hparams⟩

/-! #### The halted answer (R112) -/

theorem memoryStage_keeps_haltedNow : Keeps State.haltedNow memoryStage := fun _ _ h =>
  (congrArg State.haltedNow (memoryStage_frame h).fields :)

theorem executeStage_keeps_haltedNow : Keeps State.haltedNow executeStage := fun _ _ h =>
  (congrArg State.haltedNow (executeStage_frame h).fields :)

theorem decodeStage_keeps_haltedNow : Keeps State.haltedNow decodeStage := fun _ _ h =>
  (congrArg State.haltedNow (decodeStage_frame h).fields :)

theorem fetchStage_keeps_haltedNow : Keeps State.haltedNow fetchStage := fun _ _ h =>
  (congrArg State.haltedNow (fetchStage_frame h).fields :)

theorem writebackStage_haltedNow {s w : State}
    (h : writebackStage { s with haltedNow := false } = .next w) :
    w.haltedNow = true ↔ instrIn s.latW = some .halt := by
  rcases writebackStage_next h with ⟨hW, rfl⟩ | ⟨l, i, hW, hi, rfl⟩
  · have hW' : s.latW = none := hW
    simp [hW', instrIn]
  · have hW' : s.latW = some l := hW
    simp [afterWriteback, hW', instrIn, hi]

/-- Settles O12: Writeback alone sets the answer, and the end of a tick makes the status of it. -/
theorem haltedExactlyWhenHaltRetires : Obligations.HaltedExactlyWhenHaltRetires := by
  unfold Obligations.HaltedExactlyWhenHaltRetires
  intro s t h
  obtain ⟨f, hf, hend⟩ := step_ends h
  obtain ⟨w, hw, hfw⟩ := allStages_keeps memoryStage_keeps_haltedNow executeStage_keeps_haltedNow
    decodeStage_keeps_haltedNow fetchStage_keeps_haltedNow hf
  have hhalt : f.haltedNow = true ↔ instrIn s.latW = some .halt :=
    hfw ▸ writebackStage_haltedNow hw
  rcases hend with ⟨_, rfl, _⟩ | ⟨rfl, hunsafe⟩
  · refine ⟨hhalt, fun _ => ?_⟩
    rw [← hhalt]
    cases hf' : f.haltedNow <;> simp [ended, hf']
  · exact ⟨hhalt, fun hsafe => by simp [hunsafe] at hsafe⟩

/-! #### A tick that completes -/

/-- The states between the stages of a tick from `s` to `t` that completes. -/
structure Completes (s w m e d f t : State) : Prop where
  writeback : writebackStage { s with haltedNow := false } = .next w
  memory : memoryStage w = .next m
  runningM : m.status = .running
  execute : executeStage m = .next e
  runningE : e.status = .running
  decode : decodeStage e = .next d
  runningD : d.status = .running
  fetch : fetchStage d = .next f
  end_eq : t = ended f

theorem andThen_next_running {r : Res} {f : State → Res} {t : State} (h : andThen r f = .next t)
    (ht : t.status = .running) : ∃ s, r = .next s ∧ s.status = .running ∧ f s = .next t :=
  (andThen_next h).resolve_left fun hstop => hstop.2 ht

theorem step_completes {s t : State} (h : step s = .next t) (hsafe : t.safe = true) :
    ∃ w m e d f, Completes s w m e d f t := by
  obtain ⟨f, hf, ⟨hrun, rfl, _⟩ | ⟨rfl, hunsafe⟩⟩ := step_ends h
  · obtain ⟨d, hd, hrunD, hfetch⟩ := andThen_next_running hf hrun
    obtain ⟨e, he, hrunE, hdecode⟩ := andThen_next_running hd hrunD
    obtain ⟨m, hm, hrunM, hexecute⟩ := andThen_next_running he hrunE
    obtain ⟨w, hw, _, hmemory⟩ := andThen_next_running hm hrunM
    exact ⟨w, m, e, d, f, hw, hmemory, hrunM, hexecute, hrunE, hdecode, hrunD, hfetch, rfl⟩
  · simp [hunsafe] at hsafe

/-- What identifies the instruction in a latch: its record and where it was fetched. -/
def origin (o : Option Latch) : Option (Word × Option Instr) := o.map fun l => (l.pc, l.instr)

theorem executed_origin (i : Instr) (l : Latch) : origin (some (executed i l)) = origin (some l) :=
  rfl

theorem loaded_origin (i : Instr) (l : Latch) (m : Memory) :
    origin (some (loaded i l m)) = origin (some l) := by
  unfold loaded
  split <;> rfl

theorem decodeStage_latD {s t : State} (h : decodeStage s = .next t) :
    t.latD = s.latD ∨ t.latD = none := by
  rcases decodeStage_next h with ⟨_, rfl⟩ | ⟨l, _, _, rfl⟩ | ⟨l, i, _, _, hl⟩
  · exact .inl rfl
  · exact .inl rfl
  · obtain ⟨u, hu, _, hD, _⟩ := issue_next i.rs1Opt i.rs2Opt (dests i) l (s.enter .decode)
    cases hu.symm.trans hl
    exact hD

theorem writebackStage_empties {s w : State} (h : writebackStage s = .next w) : w.latW = none := by
  rcases writebackStage_next h with ⟨hW, rfl⟩ | ⟨l, i, _, _, rfl⟩
  · simpa using hW
  · rfl

theorem memoryStage_moves {w m : State} (h : memoryStage w = .next m) (hW : w.latW = none)
    (hrun : m.status = .running) : origin m.latW = origin w.latM ∧ m.latM = none := by
  rcases memoryStage_next h with ⟨hM, rfl⟩ | ⟨l, i, hM, _, ⟨_, rfl⟩ | ⟨_, rfl⟩⟩
  · simp [hM, hW]
  · cases hrun
  · exact ⟨by rw [hM]; exact loaded_origin i l _, rfl⟩

theorem executeStage_moves {m e : State} (h : executeStage m = .next e) (hM : m.latM = none)
    (hrun : e.status = .running) : origin e.latM = origin m.latE ∧ e.latE = none := by
  rcases executeStage_next h with ⟨hE, rfl⟩ | ⟨l, i, hE, _, ⟨_, _, rfl⟩ | ⟨_, rfl⟩⟩
  · simp [hE, hM]
  · cases hrun
  · exact ⟨by rw [hE]; exact executed_origin i l, rfl⟩

/-- Writeback empties `W`, so Memory can hand on, and then Execute; the later stages do not touch `M`
and `W`. -/
theorem step_origin {s t : State} (h : step s = .next t) (hsafe : t.safe = true) :
    origin t.latW = origin s.latM ∧ origin t.latM = origin s.latE := by
  obtain ⟨w, m, e, d, f, hc⟩ := step_completes h hsafe
  obtain ⟨hmW, hmM⟩ := memoryStage_moves hc.memory (writebackStage_empties hc.writeback) hc.runningM
  obtain ⟨heM, _⟩ := executeStage_moves hc.execute hmM hc.runningE
  have hwM : w.latM = s.latM := (congrArg State.latM (writebackStage_frame hc.writeback).fields :)
  have hwE : w.latE = s.latE := (congrArg State.latE (writebackStage_frame hc.writeback).fields :)
  have hmE : m.latE = w.latE := (congrArg State.latE (memoryStage_frame hc.memory).fields :)
  have heW : e.latW = m.latW := (congrArg State.latW (executeStage_frame hc.execute).fields :)
  have hdW : d.latW = e.latW := (congrArg State.latW (decodeStage_frame hc.decode).fields :)
  have hdM : d.latM = e.latM := (congrArg State.latM (decodeStage_frame hc.decode).fields :)
  have hfW : f.latW = d.latW := (congrArg State.latW (fetchStage_frame hc.fetch).fields :)
  have hfM : f.latM = d.latM := (congrArg State.latM (fetchStage_frame hc.fetch).fields :)
  have htW : t.latW = f.latW := (congrArg State.latW hc.end_eq :)
  have htM : t.latM = f.latM := (congrArg State.latM hc.end_eq :)
  constructor
  · rw [htW, hfW, hdW, heW, hmW, hwM]
  · rw [htM, hfM, hdM, heM, hmE, hwE]

/-- Settles O14: `step_origin` in the claim's words. -/
theorem issuedInstructionsAdvance : Obligations.IssuedInstructionsAdvance := by
  unfold Obligations.IssuedInstructionsAdvance
  exact fun s t h hsafe => step_origin h hsafe

/-! #### Behind a HALT (R118, R223) -/

/-- What a tick keeps of a state `s` with the halt-fetched flag set: `D` holds what it held or
nothing, and the flag stands unless the HALT in `D` was squashed. -/
structure HeldBehindHalt (s u : State) : Prop where
  params : u.params = s.params
  latD : u.latD = none ∨ u.latD = s.latD
  flag : u.haltFetched = true ∨ (instrIn s.latD = some .halt ∧ s.params.haltFlagSticky = false ∧
    u.latD = none ∧ u.fetchSuppress = true)

section
variable {s : State}

theorem HeldBehindHalt.of_eq {u t : State} (hu : HeldBehindHalt s u) (hparams : t.params = u.params)
    (hD : t.latD = u.latD) (hflag : t.haltFetched = u.haltFetched)
    (hsup : t.fetchSuppress = u.fetchSuppress) : HeldBehindHalt s t :=
  ⟨hparams.trans hu.params, hD ▸ hu.latD, by rw [hD, hflag, hsup]; exact hu.flag⟩

theorem HeldBehindHalt.taken {u : State} (hu : HeldBehindHalt s u) (a : Word) :
    HeldBehindHalt s (taken a u) := by
  refine ⟨by simp [hu.params], .inl (taken_latD u a), ?_⟩
  rw [taken_haltFetched, squash_haltFetched]
  rcases hu.flag with hflag | ⟨hhalt, hsticky, hD, _⟩
  · rcases hu.latD with hD | hD <;> rw [hD]
    · exact .inl hflag
    · cases hsD : s.latD with
      | none => exact .inl hflag
      | some l =>
        by_cases hl : l.instr = some .halt ∧ u.params.haltFlagSticky = false
        · exact .inr ⟨hl.1, hu.params ▸ hl.2, by simp, by simp⟩
        · simp only [hl, if_false]
          exact .inl hflag
  · exact .inr ⟨hhalt, hsticky, by simp, by simp⟩

theorem HeldBehindHalt.redirect {u : State} (hu : HeldBehindHalt s u) (a : Option Word) :
    HeldBehindHalt s (redirect a u) := by
  cases a with
  | none => exact hu
  | some a => exact hu.taken a

theorem writebackStage_preserves_held : Preserves (HeldBehindHalt s) writebackStage :=
  fun _ _ h hu => hu.of_eq (congrArg State.params (writebackStage_frame h).fields :)
    (congrArg State.latD (writebackStage_frame h).fields :)
    (congrArg State.haltFetched (writebackStage_frame h).fields :)
    (congrArg State.fetchSuppress (writebackStage_frame h).fields :)

theorem memoryStage_preserves_held : Preserves (HeldBehindHalt s) memoryStage :=
  fun _ _ h hu => hu.of_eq (congrArg State.params (memoryStage_frame h).fields :)
    (congrArg State.latD (memoryStage_frame h).fields :)
    (congrArg State.haltFetched (memoryStage_frame h).fields :)
    (congrArg State.fetchSuppress (memoryStage_frame h).fields :)

theorem executeStage_preserves_held : Preserves (HeldBehindHalt s) executeStage := by
  intro u t h hu
  rcases executeStage_next h with ⟨_, rfl⟩ | ⟨l, i, _, _, ⟨f, _, rfl⟩ | ⟨_, rfl⟩⟩
  · exact hu.of_eq rfl rfl rfl rfl
  · exact hu.of_eq rfl rfl rfl rfl
  · have hflags : HeldBehindHalt s { u.enter .execute with
        zFlag := zAfter i l u.zFlag, pFlag := pAfter i l u.pFlag } := hu.of_eq rfl rfl rfl rfl
    refine HeldBehindHalt.of_eq (hflags.redirect (transfer i l u.zFlag u.pFlag)) ?_ ?_ ?_ ?_ <;> rfl

theorem decodeStage_preserves_held : Preserves (HeldBehindHalt s) decodeStage := by
  intro u t h hu
  have hparams : t.params = u.params := (congrArg State.params (decodeStage_frame h).fields :)
  have hflag : t.haltFetched = u.haltFetched :=
    (congrArg State.haltFetched (decodeStage_frame h).fields :)
  have hsup : t.fetchSuppress = u.fetchSuppress :=
    (congrArg State.fetchSuppress (decodeStage_frame h).fields :)
  rcases decodeStage_latD h with hD | hD
  · exact hu.of_eq hparams hD hflag hsup
  · refine ⟨hparams.trans hu.params, .inl hD, ?_⟩
    rw [hflag, hsup]
    exact hu.flag.imp_right fun ⟨h1, h2, _, h4⟩ => ⟨h1, h2, hD, h4⟩

/-- Fetch clears the suppression of a squashed HALT and fetches nothing. -/
theorem HeldBehindHalt.fetch {u t : State} (hu : HeldBehindHalt s u) (h : fetchStage u = .next t) :
    t.latD = u.latD ∧ t.haltFetched = u.haltFetched := by
  rcases fetchStage_cases u with ⟨hsup, e⟩ | ⟨hsup, _, e⟩ | ⟨hsup, _, _, e⟩ | ⟨hsup, hD, hflag, e⟩
  case inr.inr.inr =>
    rcases hu.flag with hset | ⟨_, _, _, hset⟩
    · simp [hflag] at hset
    · simp [hsup] at hset
  all_goals
    cases e.symm.trans h
    exact ⟨rfl, rfl⟩

end

/-- Settles O17: the stages before Fetch keep `HeldBehindHalt`, and under it Fetch adds nothing. -/
theorem nothingFetchedBehindHalt : Obligations.NothingFetchedBehindHalt := by
  unfold Obligations.NothingFetchedBehindHalt
  intro s t h hset
  obtain ⟨f, hf, hend⟩ := step_ends h
  have hheld : ∀ d, andThen (frontHalf s) decodeStage = .next d → HeldBehindHalt s d :=
    andThen_preserves decodeStage_preserves_held
      (andThen_preserves executeStage_preserves_held
        (andThen_preserves memoryStage_preserves_held fun w hw =>
          writebackStage_preserves_held hw ⟨rfl, .inr rfl, .inl hset⟩))
  obtain ⟨d, hd, hfD, hfflag⟩ : ∃ d, HeldBehindHalt s d ∧ f.latD = d.latD ∧
      f.haltFetched = d.haltFetched := by
    rcases andThen_next hf with ⟨hd, _⟩ | ⟨d, hd, _, hfetch⟩
    · exact ⟨f, hheld f hd, rfl, rfl⟩
    · exact ⟨d, hheld d hd, (hheld d hd).fetch hfetch⟩
  have htD : t.latD = d.latD := by rcases hend with ⟨_, rfl, _⟩ | ⟨rfl, _⟩ <;> exact hfD
  have htflag : t.haltFetched = d.haltFetched := by
    rcases hend with ⟨_, rfl, _⟩ | ⟨rfl, _⟩ <;> exact hfflag
  rw [htD, htflag]
  refine ⟨hd.latD, fun hclear => ?_⟩
  rcases hd.flag with hflag | ⟨hhalt, hsticky, hempty, _⟩
  · simp [hclear] at hflag
  · exact ⟨hhalt, hsticky, hempty⟩

/-! ### The very next instruction (log 9) -/

theorem placeAt_getElem? (k : Nat) (i : Instr) (image : List Instr) :
    (placeAt k i image)[k]? = some i := by
  induction k generalizing image with
  | zero => cases image <;> rfl
  | succ k ih => cases image <;> simpa [placeAt] using ih _

theorem drained_idle (s : State) : s.drained.Idle :=
  ⟨rfl, rfl, rfl, rfl, rfl, fun r => by simp [State.isBusy, State.drained], rfl, rfl, rfl, rfl⟩

/-- Only the fields named by `Idle` matter to it. -/
theorem State.Idle.with_pc_image {s : State} (h : s.Idle) (pc : Word) (image : List Instr) :
    { s with pc := pc, image := image }.Idle :=
  ⟨h.running, h.latD, h.latE, h.latM, h.latW, h.busy, h.tapE, h.tapM, h.suppress, h.halt⟩

theorem withFetch_spec (s : State) (i : Instr) :
    (s.withFetch i).Idle ∧ (s.withFetch i).imageAt (s.withFetch i).pc = some i := by
  unfold State.withFetch
  split
  · rename_i hal
    refine ⟨(drained_idle s).with_pc_image s.pc _,
      (imageAddresses _ _ i).mpr ⟨s.imageIndex s.pc, placeAt_getElem? _ i _, ?_⟩⟩
    simp only [State.pcAligned, Bool.and_eq_true, decide_eq_true_eq] at hal
    simp only [Config.instrWidth, Nat.cast_ofNat, State.imageIndex, State.drained] at hal ⊢
    omega
  · refine ⟨(drained_idle s).with_pc_image _ _,
      (imageAddresses _ _ i).mpr ⟨0, placeAt_getElem? 0 i _, ?_⟩⟩
    simp [State.drained]

/-- With nothing in flight the first four stages only pass on. -/
theorem tick_of_idle {s : State} (h : s.Idle) :
    tick s = andThen (fetchAtPc { s with haltedNow := false, stage := .fetch }) endTick := by
  obtain ⟨hrun, hD, hE, hM, hW, _, htapE, htapM, hsup, hhalt⟩ := h
  cases s
  simp only at hrun hD hE hM hW htapE htapM hsup hhalt
  subst hrun hD hE hM hW htapE htapM hsup hhalt
  rfl

/-- Settles O7: on an idle machine the tick is the Fetch action, and `withFetch` makes one with the
instruction at the pc. -/
theorem stepRunsDecodedInstruction : Obligations.StepRunsDecodedInstruction := by
  unfold Obligations.StepRunsDecodedInstruction
  refine ⟨fun s i hidle himg => ?step, fun s nbits w i hdec => ?withFetch⟩
  case step =>
    obtain ⟨t, ht⟩ := everyInstructionAnswersNext i { s with haltedNow := false, stage := .fetch }
    have hfetch : fetchAtPc { s with haltedNow := false, stage := .fetch } = .next t := by
      have himg' : State.imageAt { s with haltedNow := false, stage := .fetch } s.pc = some i := himg
      unfold fetchAtPc
      rw [himg']
      exact ht
    have hframe := (fetched_frame i _ rfl ht).fields
    have hrun : t.status = .running := (congrArg State.status hframe :).trans hidle.running
    have hhalt : t.haltedNow = false := (congrArg State.haltedNow hframe :)
    refine ⟨t, ht, ?_⟩
    calc step s = tick s := by simp [step, hidle.running]
      _ = andThen (.next t) endTick := by rw [tick_of_idle hidle, hfetch]
      _ = endTick t := andThen_of_running hrun
      _ = _ := by simp [endTick, hhalt]
  case withFetch =>
    have e : s.withFetchWord nbits w = s.withFetch i := by simp [State.withFetchWord, hdec]
    rw [e]
    exact withFetch_spec s i

end Sys2Proof.Machine

namespace Sys2Proof.Machine

/-! ### The invariant inside a tick

`State.Inv` holds between ticks. Between two stages of a tick the suppression may be set, and then `D`
is empty (R221, R222); with this weaker clause every stage keeps the invariant. -/

/-- A latch, where it is occupied, holds a legal instruction with the fields that `p` asks for. -/
def Holds (p : Instr → Latch → Bool) (o : Option Latch) : Prop :=
  ∀ l, o = some l → ∃ i, l.instr = some i ∧ i.legal = true ∧ p i l = true

/-- What Memory reads of its latch: sources and Execute fields (R31). -/
def accessible (i : Instr) (l : Latch) : Bool := operandsPresent i l && executedPresent i l

/-- What Writeback reads of its latch (R31, R127). -/
def retirable (i : Instr) (l : Latch) : Bool :=
  (i.rdOpt.isNone || l.result.isSome) && (!isIndexed i || l.bypass.isSome)

theorem holds_none (p : Instr → Latch → Bool) : Holds p none := nofun

theorem executeLatchOk_iff {s : State} :
    s.executeLatchOk = true ↔ Holds operandsPresent s.latE := by
  unfold State.executeLatchOk Holds
  cases s.latE with
  | none => simp
  | some l => cases hi : l.instr <;> simp [hi]

theorem memoryLatchOk_iff {s : State} : s.memoryLatchOk = true ↔ Holds accessible s.latM := by
  unfold State.memoryLatchOk Holds accessible
  cases s.latM with
  | none => simp
  | some l => cases hi : l.instr <;> simp [hi, and_assoc]

theorem writebackLatchOk_iff {s : State} :
    s.writebackLatchOk = true ↔ Holds retirable s.latW := by
  unfold State.writebackLatchOk Holds retirable
  cases s.latW with
  | none => simp
  | some l => cases hi : l.instr <;> simp [hi, and_assoc]

/-- Nothing follows a HALT in the pipeline, and fetch has stopped behind it (R38, R240). -/
structure State.NothingBehindHalt (s : State) : Prop where
  latD : instrIn s.latD = some .halt → s.haltFetched = true
  latE : instrIn s.latE = some .halt → s.haltFetched = true ∧ s.latD = none
  latM : instrIn s.latM = some .halt → s.haltFetched = true ∧ s.latD = none ∧ s.latE = none
  latW : instrIn s.latW = some .halt →
    s.haltFetched = true ∧ s.latD = none ∧ s.latE = none ∧ s.latM = none

/-- With an instruction in `E`, no HALT is in `W`. -/
theorem State.NothingBehindHalt.latW_ne {s : State} (h : s.NothingBehindHalt) {l : Latch}
    (hE : s.latE = some l) : instrIn s.latW ≠ some .halt := by
  intro hW
  obtain ⟨_, _, hempty, _⟩ := h.latW hW
  cases hempty.symm.trans hE

theorem haltOk_iff {s : State} : s.haltOk = true ↔ s.NothingBehindHalt := by
  have hor : ∀ {o : Option Instr} {b : Bool},
      ((o != some .halt || b) = true ↔ (o = some .halt → b = true)) := fun {o b} => by
    by_cases h : o = some .halt <;> simp [h]
  simp only [State.haltOk, Bool.and_eq_true, hor, Option.isNone_iff_eq_none, and_assoc]
  exact ⟨fun ⟨hD, hE, hM, hW⟩ => ⟨hD, hE, hM, hW⟩, fun ⟨hD, hE, hM, hW⟩ => ⟨hD, hE, hM, hW⟩⟩

/-- The invariant between two stages of a tick. -/
structure State.Sound (s : State) : Prop where
  mem : s.memOk = true
  suppress : s.fetchSuppress = true → s.latD = none
  image : ∀ i ∈ s.image, i.legal = true
  busy : ∀ r, s.isBusy r = true ↔ r ∈ s.claimed
  claims : s.claimed.Nodup
  latD : ∀ l, s.latD = some l → l.instr = s.imageAt l.pc ∧ s.pc = nextPc l.pc
  latE : Holds operandsPresent s.latE
  latM : Holds accessible s.latM
  latW : Holds retirable s.latW
  halt : s.NothingBehindHalt

theorem decodeLatchOk_iff {s : State} : s.decodeLatchOk = true ↔
    ∀ l, s.latD = some l → l.instr = s.imageAt l.pc ∧ s.pc = nextPc l.pc := by
  unfold State.decodeLatchOk
  cases s.latD <;> simp

theorem busyOk_iff {s : State} :
    s.busyOk = true ↔ ∀ r, s.isBusy r = true ↔ r ∈ s.claimed := by
  rw [State.busyOk, decide_eq_true_eq]
  exact forall_congr' fun r => by rw [Bool.eq_iff_iff, List.contains_iff_mem]

theorem inv_iff {s : State} : s.Inv ↔ s.Sound ∧ s.fetchSuppress = false := by
  constructor
  · rintro ⟨hmem, hsup, himg, hbusy, hclaims, hD, hE, hM, hW, hhalt⟩
    have hsup' : s.fetchSuppress = false := by simpa [State.suppressOk] using hsup
    exact ⟨⟨hmem, fun h => by simp [hsup'] at h, List.all_eq_true.mp himg, busyOk_iff.mp hbusy,
      of_decide_eq_true hclaims, decodeLatchOk_iff.mp hD, executeLatchOk_iff.mp hE,
      memoryLatchOk_iff.mp hM, writebackLatchOk_iff.mp hW, haltOk_iff.mp hhalt⟩, hsup'⟩
  · rintro ⟨⟨hmem, _, himg, hbusy, hclaims, hD, hE, hM, hW, hhalt⟩, hsup⟩
    exact ⟨hmem, by simp [State.suppressOk, hsup], List.all_eq_true.mpr himg, busyOk_iff.mpr hbusy,
      decide_eq_true hclaims, decodeLatchOk_iff.mpr hD, executeLatchOk_iff.mpr hE,
      memoryLatchOk_iff.mpr hM, writebackLatchOk_iff.mpr hW, haltOk_iff.mpr hhalt⟩

/-- Settles O47: nothing is in flight before the first tick. -/
theorem invariantAtReset : Obligations.InvariantAtReset := by
  unfold Obligations.InvariantAtReset
  have initial_inv : ∀ p image regs mem, image.all Instr.legal = true →
      Memory.wf p.dataMemWords mem = true → (State.initial p image regs mem).Inv := by
    intro p image regs mem himg hmem
    have hbusy : (State.initial p image regs mem).busyOk = true := busyOk_iff.mpr fun r => by
      simp [State.isBusy, State.initial, State.claimed, destsIn, instrIn]
    exact ⟨hmem, rfl, himg, hbusy, rfl, rfl, rfl, rfl, rfl, rfl⟩
  exact ⟨initial_inv _ _ _ _ rfl rfl, initial_inv⟩

/-! #### The fields the invariant does not speak of -/

theorem State.Sound.of_frame {s t : State} (h : s.Sound) (e : t = { s with
    regs := t.regs, zFlag := t.zFlag, pFlag := t.pFlag, latF := t.latF, tapE := t.tapE, tapM := t.tapM
    cycles := t.cycles, retired := t.retired, status := t.status, haltedNow := t.haltedNow
    stage := t.stage }) : t.Sound := by
  obtain ⟨hmem, hsup, himg, hbusy, hclaims, hD, hE, hM, hW, hD', hE', hM', hW'⟩ := h
  rw [e]
  exact ⟨hmem, hsup, himg, hbusy, hclaims, hD, hE, hM, hW, hD', hE', hM', hW'⟩

theorem State.Sound.enter {s : State} (h : s.Sound) (st : Stage) : (s.enter st).Sound :=
  h.of_frame (by cases st <;> rfl)

theorem State.Sound.with_status {s : State} (h : s.Sound) (st : Status) :
    { s with status := st }.Sound :=
  h.of_frame rfl

/-! #### Writeback -/

@[simp] theorem destsIn_none : destsIn none = [] := rfl

theorem destsIn_some {l : Latch} {i : Instr} (hi : l.instr = some i) :
    destsIn (some l) = dests i := by
  simp [destsIn, instrIn, hi]

theorem State.Sound.afterWriteback {s : State} (h : s.Sound) {l : Latch} {i : Instr}
    (hW : s.latW = some l) (hi : l.instr = some i) : (afterWriteback i l s).Sound := by
  have hclaimed : s.claimed = destsIn s.latE ++ destsIn s.latM ++ dests i := by
    simp [State.claimed, hW, destsIn_some hi]
  have hclaims := hclaimed ▸ h.claims
  refine ⟨h.mem, h.suppress, h.image, fun r => ?busy, ?claims, h.latD, h.latE, h.latM, holds_none _,
    h.halt.latD, h.halt.latE, h.halt.latM, nofun⟩
  case busy =>
    have hfree : (Machine.afterWriteback i l s).isBusy r = (s.isBusy r && !(dests i).contains r) :=
      freed_getElem (dests i) s.busy r
    have hclaimed' : (Machine.afterWriteback i l s).claimed = destsIn s.latE ++ destsIn s.latM ++ [] :=
      rfl
    have hdisjoint := (List.nodup_append.mp hclaims).2.2
    rw [hfree, hclaimed', List.append_nil, Bool.and_eq_true, h.busy r, hclaimed, List.mem_append]
    constructor
    · rintro ⟨hr | hr, hnot⟩
      · exact hr
      · simp [hr] at hnot
    · exact fun hr => ⟨.inl hr, by simpa using fun hr' => hdisjoint r hr r hr' rfl⟩
  case claims =>
    have hclaimed' : (Machine.afterWriteback i l s).claimed = destsIn s.latE ++ destsIn s.latM ++ [] :=
      rfl
    rw [hclaimed', List.append_nil]
    exact (List.nodup_append.mp hclaims).1

theorem writebackStage_sound {s t : State} (h : writebackStage s = .next t) (hs : s.Sound) :
    t.Sound := by
  rcases writebackStage_next h with ⟨_, rfl⟩ | ⟨l, i, hW, hi, rfl⟩
  · exact hs.enter _
  · exact (hs.enter .writeback).afterWriteback hW hi

/-! #### Memory -/

/-- A store that does not raise keeps the canonical form. -/
theorem stored_wf {i : Instr} {l : Latch} {m : Memory} {size : Nat} (hm : Memory.wf size m = true)
    (hacc : accessFaults i l size = false) : Memory.wf size (stored i l m) = true := by
  unfold stored
  split
  · rename_i hstore
    have haccess : accessesMemory i = true := by cases i <;> simp_all [isStore, accessesMemory]
    have hin : inRange size l.addr = true := by simpa [accessFaults, haccess] using hacc
    refine Memory.wf_write size m hm _ _ ?_
    have := inRange_iff.mp hin
    have := BitVec.toInt_eq_toNat_cond l.addr
    split at this <;> omega
  · exact hm

theorem loaded_instr (i : Instr) (l : Latch) (m : Memory) : (loaded i l m).instr = l.instr := by
  unfold loaded; split <;> rfl

theorem loaded_retirable {i : Instr} {l : Latch} (h : accessible i l = true) (m : Memory) :
    retirable i (loaded i l m) = true := by
  cases i <;> simp_all [accessible, executedPresent, retirable, loaded, isLoad, isIndexed,
    Instr.rdOpt, accessesMemory]

theorem State.Sound.afterAccess {s : State} (h : s.Sound) {l : Latch} {i : Instr}
    (hM : s.latM = some l) (hi : l.instr = some i) (hW : s.latW = none)
    (hacc : accessFaults i l s.params.dataMemWords = false) : (afterAccess i l s).Sound := by
  have hi' : (loaded i l s.mem).instr = some i := (loaded_instr i l s.mem).trans hi
  have hclaimed : (Machine.afterAccess i l s).claimed = s.claimed := by
    simp [State.claimed, Machine.afterAccess, hM, hW, destsIn_some hi, destsIn_some hi']
  obtain ⟨j, hj, hlegal, hacc'⟩ := h.latM l hM
  obtain rfl : i = j := Option.some.inj (hi.symm.trans hj)
  refine ⟨stored_wf h.mem hacc, h.suppress, h.image, fun r => ?busy, ?claims, h.latD, h.latE,
    holds_none _, ?latW, h.halt.latD, h.halt.latE, nofun, ?haltW⟩
  case busy => rw [hclaimed]; exact h.busy r
  case claims => rw [hclaimed]; exact h.claims
  case latW =>
    rintro _ ⟨⟩
    exact ⟨i, hi', hlegal, loaded_retirable hacc' s.mem⟩
  case haltW =>
    intro hhalt
    have hhalt' : instrIn s.latM = some .halt := by
      simpa [Machine.afterAccess, instrIn, hi', hM, hi] using hhalt
    obtain ⟨hflag, hD, hE⟩ := h.halt.latM hhalt'
    exact ⟨hflag, hD, hE, rfl⟩

theorem memoryStage_sound {s t : State} (h : memoryStage s = .next t) (hs : s.Sound)
    (hW : s.latW = none) : t.Sound := by
  rcases memoryStage_next h with ⟨_, rfl⟩ | ⟨l, i, hM, hi, ⟨_, rfl⟩ | ⟨hacc, rfl⟩⟩
  · exact hs.enter _
  · exact (hs.enter .memory).with_status _
  · exact (hs.enter .memory).afterAccess hM hi hW hacc

/-! #### Execute -/

theorem executed_accessible {i : Instr} {l : Latch} (h : operandsPresent i l = true) :
    accessible i (executed i l) = true := by
  have hops : operandsPresent i (executed i l) = operandsPresent i l := rfl
  rw [accessible, hops, h, Bool.true_and]
  cases i <;> simp [executedPresent, executed, aluResult, accessIndex, baseUpdate, accessesMemory,
    isIndexed, isLoad, Instr.rdOpt]

theorem transfer_halt (l : Latch) (z p : Bool) : transfer .halt l z p = none := rfl

/-- The part of Execute that all kinds share: the flags, and the latch on to `M`. -/
theorem State.Sound.toMemory {s : State} (h : s.Sound) {l : Latch} {i : Instr}
    (hE : s.latE = some l) (hi : l.instr = some i) (hM : s.latM = none)
    (tap : Option (Reg × Word)) : (toMemory (executed i l) tap s).Sound := by
  have hi' : (executed i l).instr = some i := hi
  have hclaimed : (Machine.toMemory (executed i l) tap s).claimed = s.claimed := by
    simp [State.claimed, hE, hM, destsIn_some hi, destsIn_some hi']
  obtain ⟨j, hj, hlegal, hops⟩ := h.latE l hE
  obtain rfl : i = j := Option.some.inj (hi.symm.trans hj)
  have hWnot := h.halt.latW_ne hE
  refine ⟨h.mem, h.suppress, h.image, fun r => ?busy, ?claims, h.latD, holds_none _, ?latM, h.latW,
    h.halt.latD, nofun, ?haltM, fun hW => absurd hW hWnot⟩
  case busy => rw [hclaimed]; exact h.busy r
  case claims => rw [hclaimed]; exact h.claims
  case latM =>
    rintro _ ⟨⟩
    exact ⟨i, hi', hlegal, executed_accessible hops⟩
  case haltM =>
    intro hhalt
    have hhalt' : instrIn s.latE = some .halt := by simpa [instrIn, hi', hE, hi] using hhalt
    obtain ⟨hflag, hD⟩ := h.halt.latE hhalt'
    exact ⟨hflag, hD, rfl⟩

/-- A control transfer empties `D`; the instruction that takes it is no HALT, so none is ahead of
it. -/
theorem State.Sound.taken {s : State} (h : s.Sound) {l : Latch} {i : Instr} (hE : s.latE = some l)
    (hi : l.instr = some i) (hM : s.latM = none) (hne : i ≠ .halt) (a : Word) :
    (taken a s).Sound := by
  have hclaimed : (Machine.taken a s).claimed = s.claimed := by simp [State.claimed]
  have hEnot : instrIn s.latE ≠ some .halt := by simpa [instrIn, hE, hi] using hne
  have hWnot := h.halt.latW_ne hE
  refine ⟨by simpa [State.memOk] using h.mem, fun _ => taken_latD s a, by simpa using h.image,
    fun r => ?busy, hclaimed ▸ h.claims, by simp, by simpa using h.latE, by simpa using h.latM,
    by simpa using h.latW, by simp [instrIn], by simpa using fun hhalt => absurd hhalt hEnot,
    by simp [hM, instrIn], by simpa using fun hhalt => absurd hhalt hWnot⟩
  rw [hclaimed, State.isBusy_congr (taken_busy s a)]
  exact h.busy r

theorem State.Sound.afterExecute {s : State} (h : s.Sound) {l : Latch} {i : Instr}
    (hE : s.latE = some l) (hi : l.instr = some i) (hM : s.latM = none) :
    (afterExecute i l s).Sound := by
  have hflags : { s with zFlag := zAfter i l s.zFlag, pFlag := pAfter i l s.pFlag }.Sound :=
    h.of_frame rfl
  unfold Machine.afterExecute
  cases htr : transfer i l s.zFlag s.pFlag with
  | none => exact hflags.toMemory hE hi hM _
  | some a =>
    have hne : i ≠ .halt := by rintro rfl; simp [transfer_halt] at htr
    exact (hflags.taken hE hi hM hne a).toMemory (by simpa [redirect] using hE) hi
      (by simpa [redirect] using hM) _

theorem executeStage_sound {s t : State} (h : executeStage s = .next t) (hs : s.Sound)
    (hM : s.latM = none) : t.Sound := by
  rcases executeStage_next h with ⟨_, rfl⟩ | ⟨l, i, hE, hi, ⟨f, _, rfl⟩ | ⟨_, rfl⟩⟩
  · exact hs.enter _
  · exact (hs.enter .execute).with_status _
  · exact (hs.enter .execute).afterExecute hE hi hM

/-! #### Decode -/

theorem imageAt_mem {s : State} {a : Word} {i : Instr} (h : s.imageAt a = some i) : i ∈ s.image := by
  obtain ⟨k, hk, _⟩ := (imageAddresses s a i).mp h
  exact List.mem_of_getElem? hk

theorem State.Sound.decode_legal {s : State} (h : s.Sound) {l : Latch} {i : Instr}
    (hD : s.latD = some l) (hi : l.instr = some i) : i.legal = true :=
  h.image i (imageAt_mem ((h.latD l hD).1.symm.trans hi))

theorem resolveOpt_isSome {r : Option Reg} {s : State} {v : Option Word}
    (h : resolveOpt r s = some v) : v.isSome = r.isSome := by
  cases r with
  | none => cases h; rfl
  | some r =>
    obtain ⟨w, _, rfl⟩ := Option.map_eq_some_iff.mp h
    rfl

theorem State.Sound.issued {s : State} (h : s.Sound) {l : Latch} {i : Instr} {v1 v2 : Option Word}
    (hD : s.latD = some l) (hi : l.instr = some i) (hE : s.latE = none)
    (h1 : resolveOpt i.rs1Opt s = some v1) (h2 : resolveOpt i.rs2Opt s = some v2)
    (hfree : (dests i).any s.isBusy = false) :
    (toExecute v1 v2 l (markAll (dests i) s)).Sound := by
  have hlegal := h.decode_legal hD hi
  obtain ⟨b, hb⟩ := markAll_eq (dests i) s
  have hbusy : ∀ r, (toExecute v1 v2 l (markAll (dests i) s)).isBusy r =
      ((dests i).contains r || s.isBusy r) := markAll_isBusy (dests i) s
  rw [hb] at hbusy ⊢
  have hclaimed : s.claimed = destsIn s.latM ++ destsIn s.latW := by
    simp [State.claimed, hE, destsIn, instrIn]
  have hclaimed' : (toExecute v1 v2 l { s with busy := b }).claimed = dests i ++ s.claimed := by
    simp [State.claimed, hE, destsIn, instrIn, hi]
  refine ⟨h.mem, fun _ => rfl, h.image, fun r => ?busy, ?claims, nofun, ?latE, h.latM, h.latW,
    nofun, ?haltE, ?haltM, ?haltW⟩
  case busy => rw [hbusy, hclaimed', List.mem_append, Bool.or_eq_true, h.busy r, List.contains_iff_mem]
  case claims =>
    rw [hclaimed']
    refine List.nodup_append.mpr ⟨dests_nodup hlegal, h.claims, fun r hr q hq e => ?_⟩
    have hrb := List.any_eq_false.mp hfree r hr
    exact hrb ((h.busy r).mpr (e ▸ hq))
  case latE =>
    rintro _ ⟨⟩
    exact ⟨i, hi, hlegal, by
      simp [operandsPresent, resolveOpt_isSome h1, resolveOpt_isSome h2]⟩
  case haltE =>
    intro hhalt
    exact ⟨h.halt.latD (by simpa [instrIn, hD] using hhalt), rfl⟩
  case haltM => intro hhalt; simp [(h.halt.latM hhalt).2.1] at hD
  case haltW => intro hhalt; simp [(h.halt.latW hhalt).2.1] at hD

/-- Everything Decode can answer under the invariant: there is no third way to raise (R154). -/
theorem State.Sound.decodeStage_next {s t : State} (h : s.Sound) (hdec : decodeStage s = .next t) :
    t = s.enter .decode ∨
    (∃ l, s.latD = some l ∧
      t = { s.enter .decode with status := .faulted (.fetchOutOfImage l.pc) }) ∨
    ∃ l i v1 v2, s.latD = some l ∧ l.instr = some i ∧
      resolveOpt i.rs1Opt (s.enter .decode) = some v1 ∧
      resolveOpt i.rs2Opt (s.enter .decode) = some v2 ∧
      (dests i).any (s.enter .decode).isBusy = false ∧
      t = toExecute v1 v2 l (markAll (dests i) (s.enter .decode)) := by
  rcases Machine.decodeStage_next hdec with ⟨_, rfl⟩ | ⟨l, hD, _, rfl⟩ | ⟨l, i, hD, hi, hl⟩
  · exact .inl rfl
  · exact .inr (.inl ⟨l, hD, rfl⟩)
  · rcases issue_cases i.rs1Opt i.rs2Opt (dests i) l (s.enter .decode)
        (dests_nodup (h.decode_legal hD hi)) with ⟨e, _⟩ | ⟨v1, v2, h1, h2, hfree, e⟩ <;>
      cases e.symm.trans hl
    · exact .inl rfl
    · exact .inr (.inr ⟨l, i, v1, v2, hD, hi, h1, h2, hfree, rfl⟩)

theorem decodeStage_sound {s t : State} (h : decodeStage s = .next t) (hs : s.Sound)
    (hE : s.latE = none) : t.Sound := by
  rcases hs.decodeStage_next h with rfl | ⟨l, _, rfl⟩ | ⟨l, i, v1, v2, hD, hi, h1, h2, hfree, rfl⟩
  · exact hs.enter _
  · exact (hs.enter .decode).with_status _
  · exact (hs.enter .decode).issued hD hi hE h1 h2 hfree

/-! #### Fetch -/

theorem State.Sound.fetched {s : State} (h : s.Sound) (hflag : s.haltFetched = false)
    (hsup : s.fetchSuppress = false) :
    (if s.imageAt s.pc = some .halt then { fill (s.imageAt s.pc) s with haltFetched := true }
      else fill (s.imageAt s.pc) s).Sound := by
  have hnot : ∀ {o : Option Latch}, (instrIn o = some .halt → s.haltFetched = true) →
      instrIn o ≠ some .halt := fun ho hhalt => by simp [ho hhalt] at hflag
  have hE := hnot fun hhalt => (h.halt.latE hhalt).1
  have hM := hnot fun hhalt => (h.halt.latM hhalt).1
  have hW := hnot fun hhalt => (h.halt.latW hhalt).1
  have hD : ∀ l, some ({ pc := s.pc, instr := s.imageAt s.pc } : Latch) = some l →
      l.instr = s.imageAt l.pc ∧ nextPc s.pc = nextPc l.pc := by
    rintro _ ⟨⟩; exact ⟨rfl, rfl⟩
  have hsup' : ∀ {p : Prop}, s.fetchSuppress = true → p := fun hset => by simp [hsup] at hset
  split
  · exact ⟨h.mem, hsup', h.image, h.busy, h.claims, hD, h.latE, h.latM, h.latW,
      fun _ => rfl, fun hhalt => absurd hhalt hE, fun hhalt => absurd hhalt hM,
      fun hhalt => absurd hhalt hW⟩
  · rename_i hi
    exact ⟨h.mem, hsup', h.image, h.busy, h.claims, hD, h.latE, h.latM, h.latW,
      fun hhalt => absurd hhalt hi, fun hhalt => absurd hhalt hE, fun hhalt => absurd hhalt hM,
      fun hhalt => absurd hhalt hW⟩

theorem fetchStage_sound {s t : State} (h : fetchStage s = .next t) (hs : s.Sound) :
    t.Sound ∧ t.fetchSuppress = false := by
  rcases fetchStage_cases s with ⟨hsup, e⟩ | ⟨hsup, _, e⟩ | ⟨hsup, _, _, e⟩ | ⟨hsup, _, hflag, e⟩
  case inl =>
    cases e.symm.trans h
    obtain ⟨hmem, _, himg, hbusy, hclaims, hD, hE, hM, hW, hD', hE', hM', hW'⟩ := hs
    exact ⟨⟨hmem, nofun, himg, hbusy, hclaims, hD, hE, hM, hW, hD', hE', hM', hW'⟩, rfl⟩
  case inr.inr.inr =>
    rw [fetchAtPc_next _ (s.enter_stage .fetch)] at e
    cases e.symm.trans h
    refine ⟨(hs.enter .fetch).fetched hflag hsup, ?_⟩
    split <;> exact hsup
  all_goals
    cases e.symm.trans h
    exact ⟨hs.of_frame rfl, hsup⟩

end Sys2Proof.Machine

namespace Sys2Proof.Machine

/-! ### The invariant over a tick -/

theorem State.Inv.sound {s : State} (h : s.Inv) : s.Sound := (inv_iff.mp h).1

theorem State.Inv.suppress_clear {s : State} (h : s.Inv) : s.fetchSuppress = false :=
  (inv_iff.mp h).2

/-- Up to the end of Memory the suppression stays clear, and a Memory that does not raise has emptied
its latch. -/
structure AfterMemory (m : State) : Prop where
  sound : m.Sound
  suppress : m.fetchSuppress = false
  latM : m.status = .running → m.latM = none

/-- Up to the end of Execute the suppression is set by an Execute that does not raise only, which has
emptied its latch. -/
structure AfterExecute (e : State) : Prop where
  sound : e.Sound
  suppress : e.status ≠ .running → e.fetchSuppress = false
  latE : e.status = .running → e.latE = none

section
variable {s : State}

theorem throughMemory_sound {m : State} (hinv : s.Inv) (hrun : s.status = .running)
    (h : throughMemory s = .next m) : AfterMemory m := by
  obtain ⟨w, hw, _, hm⟩ := throughMemory_next hrun h
  have hwW := writebackStage_empties hw
  have hwS : w.fetchSuppress = s.fetchSuppress :=
    (congrArg State.fetchSuppress (writebackStage_frame hw).fields :)
  have hmS : m.fetchSuppress = w.fetchSuppress :=
    (congrArg State.fetchSuppress (memoryStage_frame hm).fields :)
  exact ⟨memoryStage_sound hm (writebackStage_sound hw (hinv.sound.of_frame rfl)) hwW,
    by rw [hmS, hwS, hinv.suppress_clear], fun hmrun => (memoryStage_moves hm hwW hmrun).2⟩

theorem frontHalf_sound {e : State} (hinv : s.Inv) (hrun : s.status = .running)
    (h : frontHalf s = .next e) : AfterExecute e := by
  rcases andThen_next h with ⟨he, hstop⟩ | ⟨m, hm, hmrun, he⟩
  · obtain ⟨hsound, hsup, _⟩ := throughMemory_sound hinv hrun he
    exact ⟨hsound, fun _ => hsup, fun hrun => absurd hrun hstop⟩
  · obtain ⟨hsound, hsup, hM⟩ := throughMemory_sound hinv hrun hm
    have hM := hM hmrun
    refine ⟨executeStage_sound he hsound hM, fun hstop => ?_,
      fun herun => (executeStage_moves he hM herun).2⟩
    rcases executeStage_next he with ⟨_, rfl⟩ | ⟨l, i, _, _, ⟨f, _, rfl⟩ | ⟨_, rfl⟩⟩
    · exact hsup
    · exact hsup
    · exact absurd (by simp [afterExecute, hmrun]) hstop

/-- What is left of the invariant when the tick ends before Fetch: also with Decode raising, since it
raises with an occupied `D`. -/
theorem backHalf_sound {d : State} (hinv : s.Inv) (hrun : s.status = .running)
    (h : andThen (frontHalf s) decodeStage = .next d) :
    d.Sound ∧ (d.status ≠ .running → d.fetchSuppress = false) := by
  rcases andThen_next h with ⟨hd, hstop⟩ | ⟨e, he, herun, hd⟩
  · obtain ⟨hsound, hsup, _⟩ := frontHalf_sound hinv hrun hd
    exact ⟨hsound, fun _ => hsup hstop⟩
  · obtain ⟨hsound, _, hE⟩ := frontHalf_sound hinv hrun he
    refine ⟨decodeStage_sound hd hsound (hE herun), fun hstop => ?_⟩
    rcases hsound.decodeStage_next hd with rfl | ⟨l, hD, rfl⟩ | ⟨l, i, v1, v2, _, _, _, _, _, rfl⟩
    · exact absurd herun hstop
    · cases hsup : e.fetchSuppress with
      | false => exact hsup
      | true => simp [hsound.suppress hsup] at hD
    · obtain ⟨b, hb⟩ := markAll_eq (dests i) (e.enter .decode)
      exact absurd (by simp [hb, herun]) hstop

theorem allStages_sound {f : State} (hinv : s.Inv) (hrun : s.status = .running)
    (h : allStages s = .next f) : f.Sound ∧ f.fetchSuppress = false := by
  rcases andThen_next h with ⟨hf, hstop⟩ | ⟨d, hd, _, hf⟩
  · obtain ⟨hsound, hsup⟩ := backHalf_sound hinv hrun hf
    exact ⟨hsound, hsup hstop⟩
  · exact fetchStage_sound hf (backHalf_sound hinv hrun hd).1

theorem step_inv {t : State} (hinv : s.Inv) (h : step s = .next t) : t.Inv := by
  obtain ⟨f, hf, hend⟩ := step_ends h
  obtain ⟨hsound, hsup⟩ := allStages_sound hinv (step_next h).1 hf
  rcases hend with ⟨_, rfl, _⟩ | ⟨rfl, _⟩
  · exact inv_iff.mpr ⟨hsound.of_frame rfl, hsup⟩
  · exact inv_iff.mpr ⟨hsound, hsup⟩

/-- Settles O48: each stage keeps `Sound` once the latch it hands its instruction to is empty, which
the stage before it has seen to, and the suppression is clear however the tick ends. -/
theorem everyStepKeepsInvariant : Obligations.EveryStepKeepsInvariant := by
  unfold Obligations.EveryStepKeepsInvariant
  exact fun s t hinv h => step_inv hinv h

end

/-! #### Data memory alone -/

theorem State.memOk_congr {s t : State} (hmem : t.mem = s.mem) (hparams : t.params = s.params) :
    t.memOk = s.memOk := by
  simp [State.memOk, hmem, hparams]

/-- The data memory of a state is canonical. -/
def MemCanonical (s : State) : Prop := s.memOk = true

theorem writebackStage_preserves_memCanonical : Preserves MemCanonical writebackStage :=
  fun _ _ h hs => (State.memOk_congr (congrArg State.mem (writebackStage_frame h).fields :)
    (congrArg State.params (writebackStage_frame h).fields :)).trans hs

theorem memoryStage_preserves_memCanonical : Preserves MemCanonical memoryStage := by
  intro s t h hs
  rcases memoryStage_next h with ⟨_, rfl⟩ | ⟨l, i, _, _, ⟨_, rfl⟩ | ⟨hacc, rfl⟩⟩
  · exact hs
  · exact hs
  · exact stored_wf hs hacc

theorem executeStage_preserves_memCanonical : Preserves MemCanonical executeStage :=
  fun _ _ h hs => (State.memOk_congr (congrArg State.mem (executeStage_frame h).fields :)
    (congrArg State.params (executeStage_frame h).fields :)).trans hs

theorem decodeStage_preserves_memCanonical : Preserves MemCanonical decodeStage :=
  fun _ _ h hs => (State.memOk_congr (congrArg State.mem (decodeStage_frame h).fields :)
    (congrArg State.params (decodeStage_frame h).fields :)).trans hs

theorem fetchStage_preserves_memCanonical : Preserves MemCanonical fetchStage :=
  fun _ _ h hs => (State.memOk_congr (congrArg State.mem (fetchStage_frame h).fields :)
    (congrArg State.params (fetchStage_frame h).fields :)).trans hs

/-- Settles O49: only Memory has data memory in its frame, and it writes in bounds or not at all. -/
theorem memoryStaysCanonical : Obligations.MemoryStaysCanonical := by
  unfold Obligations.MemoryStaysCanonical
  intro s t hs h
  obtain ⟨f, hf, hend⟩ := step_ends h
  have hfOk : MemCanonical f := allStages_preserves writebackStage_preserves_memCanonical
    memoryStage_preserves_memCanonical executeStage_preserves_memCanonical
    decodeStage_preserves_memCanonical fetchStage_preserves_memCanonical hf hs
  rcases hend with ⟨_, rfl, _⟩ | ⟨rfl, _⟩ <;> exact hfOk

/-! #### A next state exists -/

/-- A latch that the invariant allows never gets its stage stuck (log 8). -/
theorem runLatch_answers {p : Instr → Latch → Bool} {st : Stage} {o : Option Latch} (h : Holds p o)
    (s : State) : ∃ t, runLatch st o s = .next t := by
  cases o with
  | none => exact ⟨s, rfl⟩
  | some l =>
    obtain ⟨i, hi, _⟩ := h l rfl
    simpa [runLatch, hi] using everyInstructionAnswersNext i s

theorem decodeStage_answers (s : State) : ∃ t, decodeStage s = .next t := by
  unfold decodeStage onLatch
  split
  · exact ⟨_, rfl⟩
  · unfold decodeLatch
    split
    · exact everyInstructionAnswersNext _ _
    · exact ⟨_, rfl⟩

theorem andThen_answers {r : Res} {f : State → Res} (hr : ∃ s, r = .next s)
    (hf : ∀ s, r = .next s → s.status = .running → ∃ t, f s = .next t) :
    ∃ t, andThen r f = .next t := by
  obtain ⟨s, hs⟩ := hr
  by_cases hrun : s.status = .running
  · obtain ⟨t, ht⟩ := hf s hs hrun
    exact ⟨t, by rw [hs, andThen_of_running hrun, ht]⟩
  · exact ⟨s, by rw [hs, andThen_of_stopped hrun]⟩

theorem throughMemory_answers {s : State} (hinv : s.Inv) : ∃ m, throughMemory s = .next m :=
  andThen_answers (runLatch_answers hinv.sound.latW _) fun _ hw _ =>
    runLatch_answers (writebackStage_sound hw (hinv.sound.of_frame rfl)).latM _

theorem frontHalf_answers {s : State} (hinv : s.Inv) (hrun : s.status = .running) :
    ∃ e, frontHalf s = .next e :=
  andThen_answers (throughMemory_answers hinv) fun _ hm _ =>
    runLatch_answers (throughMemory_sound hinv hrun hm).sound.latE _

theorem step_answers {s : State} (hinv : s.Inv) (hrun : s.status = .running) :
    ∃ t, step s = .next t := by
  have hstep : step s = tick s := by simp [step, hrun]
  have hdecode := andThen_answers (frontHalf_answers hinv hrun) fun e _ _ => decodeStage_answers e
  have hfetch := andThen_answers hdecode fun d _ _ => fetchStage_next d
  rw [hstep]
  exact andThen_answers hfetch fun f _ _ => ⟨_, rfl⟩

/-- Settles O50: `exec` always answers, and the invariant keeps every latch past Decode with an
instruction. -/
theorem runningMachineAlwaysTicks : Obligations.RunningMachineAlwaysTicks := by
  unfold Obligations.RunningMachineAlwaysTicks
  exact fun s hinv hrun => step_answers hinv hrun

/-! #### `InvariantViolation` (R154, R258) -/

/-- The status is not Decode's own check failing. -/
def NoViolation (s : State) : Prop := ∀ pc r, s.status ≠ .faulted (.invariantViolation pc r)

theorem frontHalf_noViolation {s e : State} (hrun : s.status = .running)
    (h : frontHalf s = .next e) : NoViolation e := by
  have hmemory : ∀ m, throughMemory s = .next m → NoViolation m := fun m hm => by
    rcases throughMemory_status hrun hm with e | ⟨_, _, e⟩ <;> simp [NoViolation, e]
  rcases andThen_next h with ⟨he, _⟩ | ⟨m, hm, hmrun, he⟩
  · exact hmemory e he
  · rcases (executeStage_frame he).status with e | ⟨_, e | e⟩ <;> simp [NoViolation, e, hmrun]

theorem decodeStage_noViolation {e d : State} (hs : e.Sound) (hrun : e.status = .running)
    (h : decodeStage e = .next d) : NoViolation d := by
  rcases hs.decodeStage_next h with rfl | ⟨l, _, rfl⟩ | ⟨l, i, v1, v2, _, _, _, _, _, rfl⟩
  · simp [NoViolation, hrun]
  · simp [NoViolation]
  · obtain ⟨b, hb⟩ := markAll_eq (dests i) (e.enter .decode)
    simp [NoViolation, hb, hrun]

/-- Settles O51: the only stage that could raise it decodes a legal record. -/
theorem invariantViolationNeverRaised : Obligations.InvariantViolationNeverRaised := by
  unfold Obligations.InvariantViolationNeverRaised
  intro s t hinv h
  have hrun := (step_next h).1
  obtain ⟨f, hf, hend⟩ := step_ends h
  have hdecode : ∀ d, andThen (frontHalf s) decodeStage = .next d → NoViolation d := fun d hd => by
    rcases andThen_next hd with ⟨he, _⟩ | ⟨e, he, herun, hd⟩
    · exact frontHalf_noViolation hrun he
    · exact decodeStage_noViolation (frontHalf_sound hinv hrun he).sound herun hd
  rcases hend with ⟨hfrun, rfl, _⟩ | ⟨rfl, hunsafe⟩
  · intro pc r
    cases hhalt : f.haltedNow <;> simp [ended, hhalt]
  · rcases andThen_next hf with ⟨hd, _⟩ | ⟨d, hd, hdrun, hfetch⟩
    · exact hdecode _ hd
    · have hst : t.status = d.status := (congrArg State.status (fetchStage_frame hfetch).fields :)
      simp [State.safe, hst, hdrun] at hunsafe

/-! #### The tick in which HALT retires (R240) -/

theorem Completes.latE {s w m e d f t : State} (h : Completes s w m e d f t)
    (hE : s.latE = none) (hD : s.latD = none) : t.latE = none := by
  have hwE : w.latE = s.latE := (congrArg State.latE (writebackStage_frame h.writeback).fields :)
  have hmE : m.latE = w.latE := (congrArg State.latE (memoryStage_frame h.memory).fields :)
  have hwD : w.latD = s.latD := (congrArg State.latD (writebackStage_frame h.writeback).fields :)
  have hmD : m.latD = w.latD := (congrArg State.latD (memoryStage_frame h.memory).fields :)
  have hfE : f.latE = d.latE := (congrArg State.latE (fetchStage_frame h.fetch).fields :)
  have htE : t.latE = f.latE := (congrArg State.latE h.end_eq :)
  have hmE' : m.latE = none := by rw [hmE, hwE, hE]
  cases (executeStage_of_empty hmE').symm.trans h.execute
  have heD : (m.enter .execute).latD = none := by simp [hmD, hwD, hD]
  cases (decodeStage_of_empty heD).symm.trans h.decode
  simpa [htE, hfE] using hmE'

theorem origin_eq_none {o : Option Latch} : origin o = none ↔ o = none := Option.map_eq_none_iff

/-- Settles O52: behind the HALT in `W` the pipeline is empty, fetch has stopped, and so nothing
enters in the tick; with nothing in flight no register is busy. -/
theorem haltRetiresAlone : Obligations.HaltRetiresAlone := by
  unfold Obligations.HaltRetiresAlone
  intro s t hinv h hhalted
  have hsafe : t.safe = true := by simp [State.safe, hhalted]
  have hW : instrIn s.latW = some .halt := ((haltedExactlyWhenHaltRetires s t h).2 hsafe).mp hhalted
  obtain ⟨hflag, hD, hE, hM⟩ := hinv.sound.halt.latW hW
  obtain ⟨w, m, e, d, f, hc⟩ := step_completes h hsafe
  obtain ⟨htW, htM⟩ := step_origin h hsafe
  have htD : t.latD = none := by
    rcases (nothingFetchedBehindHalt s t h hflag).1 with hnone | hsame
    · exact hnone
    · rw [hsame, hD]
  have htE : t.latE = none := hc.latE hE hD
  have htM : t.latM = none := origin_eq_none.mp (htM.trans (origin_eq_none.mpr hE))
  have htW : t.latW = none := origin_eq_none.mp (htW.trans (origin_eq_none.mpr hM))
  refine ⟨htD, htE, htM, htW, fun r => ?_⟩
  have hbusy := (step_inv hinv h).sound.busy r
  simpa [State.claimed, htE, htM, htW] using hbusy

/-! ### Fatal conditions in a tick (R256) -/

theorem step_of_memory_stop {s w m : State} (hrun : s.status = .running)
    (hw : writebackStage { s with haltedNow := false } = .next w) (hm : memoryStage w = .next m)
    (hstop : m.status ≠ .running) : step s = .next m := by
  have hstep : step s = tick s := by simp [step, hrun]
  have hwrun : w.status = .running :=
    (congrArg State.status (writebackStage_frame hw).fields :).trans hrun
  rw [hstep, tick_eq, throughMemory, hw, andThen_of_running hwrun, hm, andThen_of_stopped hstop]

theorem writebackStage_answers {s : State} (h : ∀ l, s.latW = some l → l.instr ≠ none) :
    ∃ w, writebackStage s = .next w := by
  cases hW : s.latW with
  | none => exact ⟨_, writebackStage_of_empty hW⟩
  | some l =>
    obtain ⟨i, hi⟩ := Option.ne_none_iff_exists'.mp (h l hW)
    rw [writebackStage_of_latch hW hi]
    exact everyInstructionAnswersNext i _

/-- Settles O44: Writeback completes, Memory raises and changes nothing else, and the tick ends
there. -/
theorem memoryFaultLeaves : Obligations.MemoryFaultLeaves := by
  unfold Obligations.MemoryFaultLeaves
  intro s l i ea hrun hM hi hacc haddr hout hWinstr
  obtain ⟨w, hw⟩ := writebackStage_answers (s := { s with haltedNow := false }) hWinstr
  have hframe := (writebackStage_frame hw).fields
  have hwM : w.latM = some l := (congrArg State.latM hframe :).trans hM
  have hwparams : w.params = s.params := (congrArg State.params hframe :)
  have hfault : accessFaults i l w.params.dataMemWords = true := by
    rw [accessFaults, hacc, Latch.addr_of_some haddr, hwparams, Bool.true_and,
      Bool.not_eq_true', ← Bool.not_eq_true, inRange_iff]
    exact hout
  have hm : memoryStage w = .next { w with
      stage := .memory, tapM := none, status := .faulted (.memoryOutOfBounds l.pc ea) } := by
    rw [memoryStage_of_latch hwM hi, exec_memory_eq (s := w.enter .memory) rfl hwM,
      State.enter_params, if_pos hfault, Latch.addr_of_some haddr]
    rfl
  have hwW := writebackStage_empties hw
  refine ⟨w, _, hw, step_of_memory_stop hrun hw hm (by simp), rfl, hwW, hwM, ?_⟩
  exact ⟨(congrArg State.latE hframe :), (congrArg State.latD hframe :),
    (congrArg State.latF hframe :), (congrArg State.pc hframe :), (congrArg State.zFlag hframe :),
    (congrArg State.pFlag hframe :), (congrArg State.tapE hframe :), (congrArg State.mem hframe :),
    (congrArg State.cycles hframe :)⟩

/-- Memory of this state does not raise. -/
def NoAccessFault (s : State) : Prop :=
  ∀ l i, s.latM = some l → l.instr = some i → accessFaults i l s.params.dataMemWords = false

/-- The claims ask for an index in bounds, where the latch holds one; under the invariant it does
wherever Memory looks for it. -/
theorem noAccessFault_of_inBounds {s : State} (hinv : s.Inv)
    (hin : ∀ m ea, s.latM = some m → m.memAddr = some ea →
      0 ≤ ea.toInt ∧ ea.toInt < (s.params.dataMemWords : Int)) : NoAccessFault s := by
  intro l i hM hi
  obtain ⟨j, hj, _, hacc⟩ := hinv.sound.latM l hM
  obtain rfl : i = j := Option.some.inj (hi.symm.trans hj)
  unfold accessFaults
  cases hkind : accessesMemory i with
  | false => rfl
  | true =>
    obtain ⟨ea, hea⟩ : ∃ ea, l.memAddr = some ea := by
      simp only [accessible, executedPresent, hkind, Bool.and_eq_true, Bool.not_true,
        Bool.false_or] at hacc
      obtain ⟨_, ⟨haddr, _⟩, _⟩ := hacc
      exact Option.isSome_iff_exists.mp haddr
    simpa [Latch.addr_of_some hea] using inRange_iff.mpr (hin l ea hM hea)

/-- Up to Execute, a tick in which Memory does not raise. -/
structure ReachesExecute (s w m : State) : Prop where
  writeback : writebackStage { s with haltedNow := false } = .next w
  runningW : w.status = .running
  memory : memoryStage w = .next m
  running : m.status = .running

theorem reachesExecute {s : State} (hinv : s.Inv) (hrun : s.status = .running)
    (hin : NoAccessFault s) : ∃ w m, ReachesExecute s w m := by
  obtain ⟨m, hm⟩ := throughMemory_answers hinv
  obtain ⟨w, hw, hwrun, hmem⟩ := throughMemory_next hrun hm
  have hframe := (writebackStage_frame hw).fields
  have hwM : w.latM = s.latM := (congrArg State.latM hframe :)
  have hwparams : w.params = s.params := (congrArg State.params hframe :)
  refine ⟨w, m, hw, hwrun, hmem, ?_⟩
  rcases memoryStage_next hmem with ⟨_, rfl⟩ | ⟨l, i, hM, hi, ⟨hfault, _⟩ | ⟨_, rfl⟩⟩
  · simpa using hwrun
  · rw [hwparams, hin l i (hwM ▸ hM) hi] at hfault
    cases hfault
  · exact hwrun

section
variable {s w m : State} (h : ReachesExecute s w m)
include h

theorem ReachesExecute.tick_eq : tick s = afterMemory m := by
  rw [Machine.tick_eq, throughMemory, h.writeback, andThen_of_running h.runningW, h.memory,
    andThen_of_running h.running]

/-- What Writeback and Memory leave as it was, for the stages after them. -/
theorem ReachesExecute.fields : m = { m with
    params := s.params, image := s.image, pc := s.pc, zFlag := s.zFlag, pFlag := s.pFlag
    latF := s.latF, latD := s.latD, latE := s.latE, tapE := s.tapE
    fetchSuppress := s.fetchSuppress, haltFetched := s.haltFetched, cycles := s.cycles } := by
  rw [(memoryStage_frame h.memory).fields, (writebackStage_frame h.writeback).fields]

theorem ReachesExecute.latW : origin m.latW = origin s.latM := by
  have hwM : w.latM = s.latM := (congrArg State.latM (writebackStage_frame h.writeback).fields :)
  rw [(memoryStage_moves h.memory (writebackStage_empties h.writeback) h.running).1, hwM]

theorem ReachesExecute.latM : m.latM = none :=
  (memoryStage_moves h.memory (writebackStage_empties h.writeback) h.running).2

end

end Sys2Proof.Machine

namespace Sys2Proof.Machine

open Claim

/-! ### A tick that reaches Execute -/

section
variable {s w m : State}

theorem step_of_running {s : State} (hrun : s.status = .running) : step s = tick s := by
  simp [step, hrun]

theorem ReachesExecute.status (h : ReachesExecute s w m) : s.status = .running :=
  (congrArg State.status (writebackStage_frame h.writeback).fields :).symm.trans h.runningW

theorem ReachesExecute.sound (h : ReachesExecute s w m) (hinv : s.Inv) : m.Sound :=
  memoryStage_sound h.memory
    (writebackStage_sound h.writeback (hinv.sound.of_frame rfl)) (writebackStage_empties h.writeback)

theorem ReachesExecute.latE (h : ReachesExecute s w m) : m.latE = s.latE :=
  (congrArg State.latE h.fields :)

/-- An instruction that raises in Execute ends the tick there. -/
theorem ReachesExecute.step_of_fault (h : ReachesExecute s w m) {l : Latch} {i : Instr} {f : Fatal}
    (hE : s.latE = some l) (hi : l.instr = some i) (hdiv : divideFault i l = some f) :
    step s = .next { m.enter .execute with status := .faulted f } := by
  have hmE : m.latE = some l := h.latE.trans hE
  have he : executeStage m = .next { m.enter .execute with status := .faulted f } := by
    rw [executeStage_of_latch hmE hi, exec_execute_eq (s := m.enter .execute) rfl hmE, hdiv]
    rfl
  rw [step_of_running h.status, h.tick_eq, afterMemory, he]
  rfl

/-- A register that no instruction in `M` or `W` holds keeps its value through Writeback and
Memory. -/
theorem ReachesExecute.reg_of_not_mem (h : ReachesExecute s w m) {r : Reg}
    (hr : r ∉ destsIn s.latW) : m.reg r = s.reg r := by
  have hmregs : m.regs = w.regs := (congrArg State.regs (memoryStage_frame h.memory).fields :)
  rw [State.reg_congr hmregs]
  rcases writebackStage_next h.writeback with ⟨_, rfl⟩ | ⟨l, i, hW, hi, rfl⟩
  · rfl
  · have hW' : s.latW = some l := hW
    rw [hW', destsIn_some hi] at hr
    exact retiredRegs_of_not_mem l s.regs hr

end

/-- Settles O45: Memory has handed on, Execute raises and changes nothing else; the DIV's claim on its
destination is the only one, so nothing has written it. -/
theorem divideFaultLeaves : Obligations.DivideFaultLeaves := by
  unfold Obligations.DivideFaultLeaves
  intro s l rd rs1 rs2 a b f hinv hrun hE hi ha hb hcond hin
  obtain ⟨w, m, h⟩ := reachesExecute hinv hrun (noAccessFault_of_inBounds hinv hin)
  have hdiv : divideFault (.div rd rs1 rs2) l = some f := by
    rw [divideFault_div, Latch.rs1v_of_some ha, Latch.rs2v_of_some hb]
    rcases hcond with ⟨h0, rfl⟩ | ⟨hmin, hone, rfl⟩
    · rw [if_pos h0]
    · rw [if_neg (by omega), if_pos ⟨hmin, hone⟩]
  have hstep := h.step_of_fault hE hi hdiv
  have hclaimed : destsIn s.latE = [rd] := by rw [hE, destsIn_some hi]; rfl
  have hfree : rd ∉ destsIn s.latW := by
    have hnodup := hinv.sound.claims
    rw [State.claimed, hclaimed, List.append_assoc] at hnodup
    have hdisjoint := (List.nodup_append.mp hnodup).2.2
    exact fun hW => hdisjoint rd (.head _) rd (List.mem_append_right _ hW) rfl
  have hmE : m.latE = some l := h.latE.trans hE
  refine ⟨_, hstep, rfl, hmE, h.latM, h.latW, ?busy, h.reg_of_not_mem hfree, ?_⟩
  case busy =>
    refine ((step_inv hinv hstep).sound.busy rd).mpr ?_
    simp [State.claimed, hmE, destsIn_some hi, dests]
  exact ⟨(congrArg State.zFlag h.fields :), (congrArg State.pFlag h.fields :), rfl,
    (congrArg State.latD h.fields :), (congrArg State.latF h.fields :),
    (congrArg State.pc h.fields :), (congrArg State.cycles h.fields :)⟩

/-! ### Control transfer in a tick (R117, R221 to R223) -/

section
variable {s w m : State}

/-- The end of a tick that has emptied `D` before Decode. -/
theorem afterMemory_of_empty_latD {m e : State} (he : executeStage m = .next e)
    (hrun : e.status = .running) (hD : e.latD = none) :
    afterMemory m = andThen (fetchStage (e.enter .decode)) endTick := by
  have hrun' : (e.enter .decode).status = .running := by simpa using hrun
  rw [afterMemory, he, andThen_of_running hrun, decodeStage_of_empty hD, andThen_of_running hrun']

/-- The state after a tick in which Execute of `i` took a control transfer, for the state `m` it
found. -/
def afterTransfer (i : Instr) (l : Latch) (m : State) : State :=
  ended { ((afterExecute i l (m.enter .execute)).enter .decode).enter .fetch with
    fetchSuppress := false, latF := none }

section
variable {i : Instr} {l : Latch} {a : Word} (htr : transfer i l m.zFlag m.pFlag = some a)

theorem afterTransfer_params (i : Instr) (l : Latch) (m : State) :
    (afterTransfer i l m).params = m.params := by
  simp [afterTransfer, ended, afterExecute]

theorem afterTransfer_image (i : Instr) (l : Latch) (m : State) :
    (afterTransfer i l m).image = m.image := by
  simp [afterTransfer, ended, afterExecute]

theorem afterTransfer_status (i : Instr) (l : Latch) {m : State} (h : m.haltedNow = false) :
    (afterTransfer i l m).status = .running := by
  simp [afterTransfer, ended, afterExecute, h]

include htr

theorem afterTransfer_pc : (afterTransfer i l m).pc = a := by
  simp [afterTransfer, ended, afterExecute, htr]

theorem afterTransfer_latD : (afterTransfer i l m).latD = none := by
  simp [afterTransfer, ended, afterExecute, htr]

theorem afterTransfer_haltFetched :
    (afterTransfer i l m).haltFetched = (Redirected m a).haltFetched := by
  have hexecute : (afterTransfer i l m).haltFetched =
      (redirect (transfer i l m.zFlag m.pFlag) { m.enter .execute with
        zFlag := zAfter i l m.zFlag, pFlag := pAfter i l m.pFlag }).haltFetched := rfl
  rw [hexecute, htr, ← taken_eq_redirected]
  simp [redirect, taken_haltFetched, squash_haltFetched]

end

theorem ReachesExecute.transfer_eq (h : ReachesExecute s w m) (i : Instr) (l : Latch) :
    transfer i l m.zFlag m.pFlag = transfer i l s.zFlag s.pFlag := by
  rw [(congrArg State.zFlag h.fields :), (congrArg State.pFlag h.fields :)]

theorem ReachesExecute.redirected_haltFetched (h : ReachesExecute s w m) (a : Word) :
    (Redirected m a).haltFetched = (Redirected s a).haltFetched := by
  rw [h.fields]
  rfl

theorem ReachesExecute.step_of_transfer (h : ReachesExecute s w m) {l : Latch} {i : Instr} {a : Word}
    (hE : s.latE = some l) (hi : l.instr = some i) (hdiv : divideFault i l = none)
    (htr : transfer i l m.zFlag m.pFlag = some a) : step s = .next (afterTransfer i l m) := by
  have hmE : m.latE = some l := h.latE.trans hE
  have he : executeStage m = .next (afterExecute i l (m.enter .execute)) := by
    rw [executeStage_of_latch hmE hi, exec_execute_eq (s := m.enter .execute) rfl hmE, hdiv]
    rfl
  have hrun : (afterExecute i l (m.enter .execute)).status = .running := by
    simp [afterExecute, h.running]
  have hD : (afterExecute i l (m.enter .execute)).latD = none := by simp [afterExecute, htr]
  have hsup : ((afterExecute i l (m.enter .execute)).enter .decode).fetchSuppress = true := by
    simp [afterExecute, htr]
  rw [step_of_running h.status, h.tick_eq, afterMemory_of_empty_latD he hrun hD, fetchStage,
    if_pos hsup]
  exact andThen_of_running hrun

theorem imageAt_congr {s t : State} (himg : t.image = s.image) (hparams : t.params = s.params)
    (a : Word) : t.imageAt a = s.imageAt a := by
  simp [State.imageAt, State.fetchable, State.imageIndex, himg, hparams]

/-- With `D` and `E` empty, the suppression clear and no HALT fetched, a tick fetches at the pc. -/
theorem ReachesExecute.step_of_fetch (h : ReachesExecute s w m) (hE : s.latE = none)
    (hD : s.latD = none) (hsup : s.fetchSuppress = false) (hflag : s.haltFetched = false) :
    ∃ u, step s = .next u ∧ u.latD = some { pc := s.pc, instr := s.imageAt s.pc } ∧
      u.pc = nextPc s.pc := by
  have hfields := h.fields
  have hmE : m.latE = none := h.latE.trans hE
  have hmD : m.latD = none := (congrArg State.latD hfields :).trans hD
  have hmpc : m.pc = s.pc := (congrArg State.pc hfields :)
  have hmsup : m.fetchSuppress = false := (congrArg State.fetchSuppress hfields :).trans hsup
  have hmflag : m.haltFetched = false := (congrArg State.haltFetched hfields :).trans hflag
  have himg : m.imageAt s.pc = s.imageAt s.pc := by rw [hfields]; rfl
  have hfetch := (fetchStageActions ((m.enter .execute).enter .decode)).2.2.2 hmsup hmD hmflag
  have hrun : m.status = .running := h.running
  have hstep := step_of_running h.status
  rw [h.tick_eq, afterMemory_of_empty_latD (executeStage_of_empty hmE) hrun hmD, hfetch,
    andThen_of_running (by exact hrun)] at hstep
  have hpc : ((m.enter .execute).enter .decode).pc = s.pc := hmpc
  have himg' : ((m.enter .execute).enter .decode).imageAt s.pc = s.imageAt s.pc := himg
  refine ⟨_, hstep, ?_, ?_⟩
  · simp only [hpc, himg']
  · simp only [hpc]
    rfl

/-- A control transfer is taken by these kinds only, on these flags (R224 to R229). -/
theorem transfer_eq_some {i : Instr} {l : Latch} {z p : Bool} {a : Word}
    (h : (∃ rs1 imm v, i = .jump rs1 imm ∧ l.rs1Val = some v ∧ a = wrap32 (v.toInt + imm.toInt)) ∨
      ∃ imm, a = wrap32 (l.pc.toInt + imm.toInt) ∧
        ((i = .bz imm ∧ z = true) ∨ (i = .bnz imm ∧ z = false) ∨
         (i = .bp imm ∧ p = true) ∨ (i = .bnp imm ∧ p = false))) :
    transfer i l z p = some a ∧ divideFault i l = none ∧ accessesMemory i = false := by
  rcases h with ⟨rs1, imm, v, rfl, hv, rfl⟩ | ⟨imm, rfl, ⟨rfl, hz⟩ | ⟨rfl, hz⟩ | ⟨rfl, hp⟩ | ⟨rfl, hp⟩⟩
  · exact ⟨by rw [transfer, Latch.rs1v_of_some hv]; rfl, rfl, rfl⟩
  · exact ⟨by rw [transfer, hz]; rfl, rfl, rfl⟩
  · exact ⟨by rw [transfer, hz]; rfl, rfl, rfl⟩
  · exact ⟨by rw [transfer, hp]; rfl, rfl, rfl⟩
  · exact ⟨by rw [transfer, hp]; rfl, rfl, rfl⟩

theorem ReachesExecute.haltedNow (h : ReachesExecute s w m) :
    m.haltedNow = true ↔ instrIn s.latW = some .halt := by
  have hmw : m.haltedNow = w.haltedNow :=
    (congrArg State.haltedNow (memoryStage_frame h.memory).fields :)
  rw [hmw]
  exact writebackStage_haltedNow h.writeback

end

/-- Settles O46: Execute redirects, Decode finds nothing, and Fetch clears the suppression; what then
stands in `M` accesses no memory, so the next tick reaches its own Fetch. -/
theorem takenTransferRedirectsFetch : Obligations.TakenTransferRedirectsFetch := by
  unfold Obligations.TakenTransferRedirectsFetch
  intro s l i target hinv hrun hE hi htaken hin
  obtain ⟨w, m, h⟩ := reachesExecute hinv hrun (noAccessFault_of_inBounds hinv hin)
  obtain ⟨htr, hdiv, hacc⟩ := transfer_eq_some htaken
  rw [← h.transfer_eq] at htr
  have hstep := h.step_of_transfer hE hi hdiv htr
  have hpc := afterTransfer_pc htr
  have hD := afterTransfer_latD htr
  have hflag := (afterTransfer_haltFetched htr).trans (h.redirected_haltFetched target)
  have hhalted : m.haltedNow = false := by
    rw [← Bool.not_eq_true, h.haltedNow]
    exact hinv.sound.halt.latW_ne hE
  have hrunning := afterTransfer_status i l hhalted
  refine ⟨_, hstep, ended_safe _, hpc, hD, rfl, rfl, rfl, hflag, fun hclear => ?next⟩
  have hin' : NoAccessFault (afterTransfer i l m) := by
    rintro _ j ⟨⟩ hj
    obtain rfl : i = j := Option.some.inj (hi.symm.trans hj)
    simp [accessFaults, hacc]
  have himg : (afterTransfer i l m).imageAt target = s.imageAt target := imageAt_congr
    ((afterTransfer_image i l m).trans (congrArg State.image h.fields :))
    ((afterTransfer_params i l m).trans (congrArg State.params h.fields :)) target
  obtain ⟨w', m', h'⟩ := reachesExecute (step_inv hinv hstep) hrunning hin'
  obtain ⟨u, hu, huD, hupc⟩ := h'.step_of_fetch rfl hD rfl hclear
  refine ⟨u, hu, ?_, ?_⟩
  · rw [huD, hpc, himg]
  · rw [hupc, hpc]
    rfl

end Sys2Proof.Machine

namespace Sys2Proof.Machine

/-! ### How long Decode stalls (R146, R155)

A tick in which Decode stalls leaves `E` empty behind it, so after two of them nothing past Decode is
in flight but what `W` holds, and Writeback comes first in the third. -/

theorem nextPc_ne (pc : Word) : nextPc pc ≠ pc := by
  have e : nextPc pc = pc + 4 := addWords_eq pc 4
  rw [e]
  bv_omega

/-- Fetch moves the pc if it fills `D`. -/
theorem fetchStage_of_empty_latD {d f : State} (h : fetchStage d = .next f) (hD : d.latD = none) :
    f.latD = none ∨ (d.fetchSuppress = false ∧ f.pc ≠ d.pc) := by
  rcases fetchStage_cases d with ⟨_, e⟩ | ⟨_, hne, _⟩ | ⟨_, _, _, e⟩ | ⟨hsup, _, _, e⟩
  · cases e.symm.trans h; exact .inl hD
  · exact absurd hD hne
  · cases e.symm.trans h; exact .inl hD
  · rw [fetchAtPc_next _ (d.enter_stage .fetch)] at e
    cases e.symm.trans h
    refine .inr ⟨hsup, ?_⟩
    split <;> exact nextPc_ne d.pc

/-- Execute leaves `D` and the pc alone, but for a control transfer, which suppresses Fetch. -/
theorem executeStage_latD {m e : State} (h : executeStage m = .next e) :
    (e.latD = m.latD ∧ e.pc = m.pc) ∨ (e.latD = none ∧ e.fetchSuppress = true) := by
  rcases executeStage_next h with ⟨_, rfl⟩ | ⟨l, i, _, _, ⟨f, _, rfl⟩ | ⟨_, rfl⟩⟩
  · exact .inl ⟨rfl, rfl⟩
  · exact .inl ⟨rfl, rfl⟩
  · cases htr : transfer i l m.zFlag m.pFlag with
    | none => exact .inl ⟨by simp [afterExecute, htr], by simp [afterExecute, htr]⟩
    | some a => exact .inr ⟨by simp [afterExecute, htr], by simp [afterExecute, htr]⟩

/-- With no register busy Decode issues (R144). -/
theorem State.Sound.decodeStage_issues {e d : State} (hs : e.Sound) (hfree : ∀ r, e.isBusy r = false)
    (h : decodeStage e = .next d) (hrun : d.status = .running) : d.latD = none := by
  rcases Machine.decodeStage_next h with ⟨hD, rfl⟩ | ⟨l, _, _, rfl⟩ | ⟨l, i, hD, hi, hl⟩
  · exact hD
  · cases hrun
  · have hfree' : ∀ r, (e.enter .decode).isBusy r = false := hfree
    have hany : (dests i).any (e.enter .decode).isBusy = false :=
      List.any_eq_false.mpr fun r _ => by simp [hfree' r]
    rcases issue_cases i.rs1Opt i.rs2Opt (dests i) l (e.enter .decode)
        (dests_nodup (hs.decode_legal hD hi)) with ⟨_, hstall⟩ | ⟨v1, v2, _, _, _, he⟩
    · have h1 := resolveOpt_of_not_busy (r := i.rs1Opt) hfree'
      have h2 := resolveOpt_of_not_busy (r := i.rs2Opt) hfree'
      rcases hstall with hnone | hnone | hbusy
      · simp [hnone] at h1
      · simp [hnone] at h2
      · simp [hany] at hbusy
    · cases he.symm.trans hl
      rfl

section
variable {s w m e d f t : State}

theorem Completes.sound_execute (h : Completes s w m e d f t) (hinv : s.Inv) :
    e.Sound ∧ e.latE = none := by
  have hsound := writebackStage_sound h.writeback (hinv.sound.of_frame rfl)
  have hempty := writebackStage_empties h.writeback
  have hM := (memoryStage_moves h.memory hempty h.runningM).2
  exact ⟨executeStage_sound h.execute (memoryStage_sound h.memory hsound hempty) hM,
    (executeStage_moves h.execute hM h.runningE).2⟩

/-- A stalled tick is one in which Decode had an instruction and left it in `D`. -/
theorem Completes.decode_stalls (h : Completes s w m e d f t) {l : Latch}
    (htD : t.latD = some l) (hpc : t.pc = s.pc) : d.latD ≠ none := by
  have hfD : f.latD = some l := (congrArg State.latD h.end_eq :).symm.trans htD
  have hfpc : f.pc = s.pc := (congrArg State.pc h.end_eq :).symm.trans hpc
  have hdpc : d.pc = e.pc := (congrArg State.pc (decodeStage_frame h.decode).fields :)
  have hdsup : d.fetchSuppress = e.fetchSuppress :=
    (congrArg State.fetchSuppress (decodeStage_frame h.decode).fields :)
  have hmpc : m.pc = s.pc := by
    rw [(memoryStage_frame h.memory).fields, (writebackStage_frame h.writeback).fields]
  intro hd
  rcases fetchStage_of_empty_latD h.fetch hd with hnone | ⟨hsup, hne⟩
  · simp [hfD] at hnone
  rcases executeStage_latD h.execute with ⟨_, hepc⟩ | ⟨_, hset⟩
  · exact hne (by rw [hfpc, hdpc, hepc, hmpc])
  · simp [← hdsup, hsup] at hset

theorem Completes.latE_of_stall (h : Completes s w m e d f t) (hinv : s.Inv) (hd : d.latD ≠ none) :
    t.latE = none := by
  obtain ⟨hsound, hE⟩ := h.sound_execute hinv
  have hfE : f.latE = d.latE := (congrArg State.latE (fetchStage_frame h.fetch).fields :)
  have htE : t.latE = f.latE := (congrArg State.latE h.end_eq :)
  rw [htE, hfE]
  rcases hsound.decodeStage_next h.decode with rfl | ⟨l, _, rfl⟩ | ⟨l, i, v1, v2, _, _, _, _, _, rfl⟩
  · exact hE
  · exact hE
  · exact absurd rfl hd

/-- With `E` and `M` empty before the tick, Writeback frees the last busy register. -/
theorem Completes.free_execute (h : Completes s w m e d f t) (hinv : s.Inv) (hE : s.latE = none)
    (hM : s.latM = none) (r : Reg) : e.isBusy r = false := by
  obtain ⟨hsound, heE⟩ := h.sound_execute hinv
  have hwE : w.latE = none := (congrArg State.latE (writebackStage_frame h.writeback).fields :).trans hE
  have hwM : w.latM = none := (congrArg State.latM (writebackStage_frame h.writeback).fields :).trans hM
  have hmE : m.latE = none := (congrArg State.latE (memoryStage_frame h.memory).fields :).trans hwE
  have hempty := writebackStage_empties h.writeback
  cases (memoryStage_of_empty hwM).symm.trans h.memory
  cases (executeStage_of_empty hmE).symm.trans h.execute
  have hbusy := hsound.busy r
  simpa [State.claimed, hwE, hwM, hempty] using hbusy

end

theorem State.Stalls.completes {s t : State} (hst : s.Stalls) (h : step s = .next t) :
    ∃ w m e d f, Completes s w m e d f t ∧ d.latD ≠ none := by
  obtain ⟨l, t', _, h', htD, hpc, hrun⟩ := hst
  cases h'.symm.trans h
  obtain ⟨w, m, e, d, f, hc⟩ := step_completes h (by simp [State.safe, hrun])
  exact ⟨w, m, e, d, f, hc, hc.decode_stalls htD hpc⟩

theorem latE_of_stalls {s t : State} (hinv : s.Inv) (hst : s.Stalls) (h : step s = .next t) :
    t.latE = none := by
  obtain ⟨w, m, e, d, f, hc, hd⟩ := hst.completes h
  exact hc.latE_of_stall hinv hd

theorem not_stalls_of_empty {s : State} (hinv : s.Inv) (hE : s.latE = none) (hM : s.latM = none) :
    ¬ s.Stalls := by
  intro hst
  obtain ⟨_, t, _, h, _⟩ := id hst
  obtain ⟨w, m, e, d, f, hc, hd⟩ := hst.completes h
  exact hd ((hc.sound_execute hinv).1.decodeStage_issues (hc.free_execute hinv hE hM) hc.decode
    hc.runningD)

/-- Settles O53: the first stall leaves `E` empty, the second `E` and `M`. -/
theorem stallsLastAtMostTwoTicks : Obligations.StallsLastAtMostTwoTicks := by
  unfold Obligations.StallsLastAtMostTwoTicks
  intro s t u hinv hs h ht h'
  have hinvT := step_inv hinv h
  have htE := latE_of_stalls hinv hs h
  have huE := latE_of_stalls hinvT ht h'
  have hsafe : u.safe = true := by
    obtain ⟨_, u', _, hu', _, _, hrun⟩ := ht
    cases hu'.symm.trans h'
    simp [State.safe, hrun]
  have huM : u.latM = none :=
    origin_eq_none.mp ((step_origin h' hsafe).2.trans (origin_eq_none.mpr htE))
  exact not_stalls_of_empty (step_inv hinvT h') huE huM

end Sys2Proof.Machine

namespace Sys2Proof.Machine

/-! ### Completing what is in flight, without the pipeline

`State.finished` is the architectural state once everything issued has completed, computed from the
latches alone. Every stage keeps it: a stage only moves a part of the computation from a latch into the
state. -/

/-- Writeback of `i` on an architectural state. -/
def finishW (i : Instr) (l : Latch) (a : Arch) : Arch := { a with regs := retiredRegs i l a.regs }

/-- Memory and then Writeback of `i`, or the fatal condition Memory raises. -/
def finishM (size : Nat) (i : Instr) (l : Latch) (a : Arch) : Arch ⊕ Fatal :=
  if accessFaults i l size then .inr (.memoryOutOfBounds l.pc l.addr)
  else .inl (finishW i (loaded i l a.mem) { a with mem := stored i l a.mem })

/-- Execute, Memory and then Writeback of `i`, or the first fatal condition raised. -/
def finishE (size : Nat) (i : Instr) (l : Latch) (a : Arch) : Arch ⊕ Fatal :=
  match divideFault i l with
  | some f => .inr f
  | none => finishM size i (executed i l) { a with
      zFlag := zAfter i l a.zFlag
      pFlag := pAfter i l a.pFlag
      pc := (transfer i l a.zFlag a.pFlag).getD a.pc }

/-- A completion applied to the instruction in a latch, if there is one. -/
def onOccupant (act : Instr → Latch → Arch → Arch ⊕ Fatal) (o : Option Latch) (a : Arch) :
    Option Arch :=
  match o with
  | none => some a
  | some l =>
    match l.instr with
    | none => some a
    | some i => (act i l a).getLeft?

@[simp] theorem onOccupant_none (act : Instr → Latch → Arch → Arch ⊕ Fatal) :
    onOccupant act none = some := rfl

theorem onOccupant_some {act : Instr → Latch → Arch → Arch ⊕ Fatal} {l : Latch} {i : Instr}
    (hi : l.instr = some i) (a : Arch) : onOccupant act (some l) a = (act i l a).getLeft? := by
  simp [onOccupant, hi]

/-- The architectural state with the address of the next instruction to issue in place of the pc. -/
def State.pending (s : State) : Arch := { s.arch with pc := s.nextIssue }

/-- The register file once the instruction in `W`, if there is one, is written back. -/
def retiredIn (o : Option Latch) (regs : Vector Word 16) : Vector Word 16 :=
  match o with
  | none => regs
  | some l =>
    match l.instr with
    | none => regs
    | some i => retiredRegs i l regs

@[simp] theorem retiredIn_none (regs : Vector Word 16) : retiredIn none regs = regs := rfl

theorem retiredIn_some {l : Latch} {i : Instr} (hi : l.instr = some i) (regs : Vector Word 16) :
    retiredIn (some l) regs = retiredRegs i l regs := by
  simp [retiredIn, hi]

/-- The architectural state once everything issued has completed, or none where that raises. -/
def State.finished (s : State) : Option Arch :=
  (onOccupant (finishM s.params.dataMemWords) s.latM
    { s.pending with regs := retiredIn s.latW s.regs }).bind
      (onOccupant (finishE s.params.dataMemWords) s.latE)

/-- A state in another stage, with other taps, counters and status. -/
theorem finished_of_frame {s t : State} (e : t = { s with
    busy := t.busy, latF := t.latF, tapE := t.tapE, tapM := t.tapM, fetchSuppress := t.fetchSuppress
    haltFetched := t.haltFetched, cycles := t.cycles, retired := t.retired, status := t.status
    haltedNow := t.haltedNow, stage := t.stage }) : t.finished = s.finished := by
  rw [e]
  rfl

theorem finished_enter (s : State) (st : Stage) : (s.enter st).finished = s.finished :=
  finished_of_frame (by cases st <;> rfl)

/-! #### Each stage but Decode keeps it -/

section
variable {s t : State}

theorem writebackStage_finished (h : writebackStage s = .next t) : t.finished = s.finished := by
  rcases writebackStage_next h with ⟨_, rfl⟩ | ⟨l, i, hW, hi, rfl⟩
  · exact finished_enter s _
  · simp only [State.finished, hW, retiredIn_some hi]
    rfl

/-- A Memory that raises leaves nothing to complete to. -/
theorem memoryStage_finished (h : memoryStage s = .next t) (hW : s.latW = none) :
    (t.status = s.status ∧ t.finished = s.finished) ∨ (t.status ≠ .running ∧ s.finished = none) := by
  rcases memoryStage_next h with ⟨_, rfl⟩ | ⟨l, i, hM, hi, ⟨hacc, rfl⟩ | ⟨hacc, rfl⟩⟩
  · exact .inl ⟨by simp, finished_enter s _⟩
  · refine .inr ⟨by simp, ?_⟩
    simp [State.finished, hM, onOccupant_some hi, finishM, hacc]
  · refine .inl ⟨rfl, ?_⟩
    have hi' : (loaded i l s.mem).instr = some i := (loaded_instr i l s.mem).trans hi
    have hW' : (afterAccess i l (s.enter .memory)).latW = some (loaded i l s.mem) := rfl
    have hM' : (afterAccess i l (s.enter .memory)).latM = none := rfl
    simp only [State.finished, hW, hM, hW', hM', onOccupant_some hi, retiredIn_some hi', finishM, hacc]
    rfl

theorem pending_afterExecute (i : Instr) (l : Latch) (s : State) :
    (afterExecute i l s).pending = { s.pending with
      zFlag := zAfter i l s.zFlag
      pFlag := pAfter i l s.pFlag
      pc := (transfer i l s.zFlag s.pFlag).getD s.nextIssue } := by
  cases htr : transfer i l s.zFlag s.pFlag <;>
    simp [State.pending, State.arch, State.nextIssue, afterExecute, htr]

/-- An Execute that raises leaves nothing to complete to. -/
theorem executeStage_finished (h : executeStage s = .next t) (hM : s.latM = none) :
    (t.status = s.status ∧ t.finished = s.finished) ∨ (t.status ≠ .running ∧ s.finished = none) := by
  rcases executeStage_next h with ⟨_, rfl⟩ | ⟨l, i, hE, hi, ⟨f, hdiv, rfl⟩ | ⟨hdiv, rfl⟩⟩
  · exact .inl ⟨by simp, finished_enter s _⟩
  · refine .inr ⟨by simp, ?_⟩
    simp [State.finished, hM, hE, onOccupant_some hi, finishE, hdiv]
  · refine .inl ⟨by simp [afterExecute], ?_⟩
    have hi' : (executed i l).instr = some i := hi
    have hM' : (afterExecute i l (s.enter .execute)).latM = some (executed i l) := rfl
    have hE' : (afterExecute i l (s.enter .execute)).latE = none := rfl
    have hW' : (afterExecute i l (s.enter .execute)).latW = s.latW := by simp [afterExecute]
    have hregs : (afterExecute i l (s.enter .execute)).regs = s.regs := by simp [afterExecute]
    have hparams : (afterExecute i l (s.enter .execute)).params = s.params := by simp [afterExecute]
    simp only [State.finished, hM, hE, hM', hE', hW', hregs, hparams, pending_afterExecute,
      onOccupant_some hi, onOccupant_some hi', onOccupant_none, finishE, hdiv, Option.bind_some,
      Option.bind_fun_some]
    rfl

theorem nextIssue_of_some {l : Latch} (h : s.latD = some l) : s.nextIssue = l.pc := by
  simp [State.nextIssue, h]

theorem nextIssue_of_none (h : s.latD = none) : s.nextIssue = s.pc := by
  simp [State.nextIssue, h]

/-- Fetch moves the next instruction to issue from the pc into `D`. -/
theorem fetchStage_finished (h : fetchStage s = .next t) : t.finished = s.finished := by
  rcases fetchStage_cases s with ⟨_, e⟩ | ⟨_, _, e⟩ | ⟨_, _, _, e⟩ | ⟨_, hD, _, e⟩
  case inr.inr.inr =>
    rw [fetchAtPc_next _ (s.enter_stage .fetch)] at e
    cases e.symm.trans h
    have hnext : s.nextIssue = s.pc := nextIssue_of_none hD
    simp only [State.finished, State.pending, hnext]
    split <;> rfl
  all_goals
    cases e.symm.trans h
    exact finished_of_frame rfl

end

/-! #### `committed` is `finished` -/

theorem finished_of_drained {s : State} (hE : s.latE = none) (hM : s.latM = none)
    (hW : s.latW = none) : s.finished = some s.pending := by
  simp only [State.finished, hE, hM, hW, onOccupant_none, retiredIn_none, Option.bind_some]
  rfl

/-- An outcome is on its way to `o`: a sound running state with `P` that finishes as `o`, or a raise
where there is no `o`. -/
def Settles (P : State → Prop) (o : Option Arch) (r : Res) : Prop :=
  ∃ t, r = .next t ∧ ((t.status = .running ∧ t.Sound ∧ t.finished = o ∧ P t) ∨
    (t.status ≠ .running ∧ o = none))

theorem Settles.andThen {P Q : State → Prop} {o : Option Arch} {r : Res} {f : State → Res}
    (h : Settles P o r)
    (hf : ∀ s, s.status = .running → s.Sound → P s → Settles Q s.finished (f s)) :
    Settles Q o (andThen r f) := by
  obtain ⟨s, rfl, ⟨hrun, hs, rfl, hP⟩ | ⟨hstop, ho⟩⟩ := h
  · rw [andThen_of_running hrun]
    exact hf s hrun hs hP
  · rw [andThen_of_stopped hstop]
    exact ⟨s, rfl, .inr ⟨hstop, ho⟩⟩

section
variable {s : State} (hrun : s.status = .running) (hs : s.Sound)
include hrun hs

theorem settles_writeback {oM oE : Option Latch} (hM : s.latM = oM) (hE : s.latE = oE) :
    Settles (fun t => t.latW = none ∧ t.latM = oM ∧ t.latE = oE) s.finished (writebackStage s) := by
  obtain ⟨t, ht⟩ := runLatch_answers (st := .writeback) hs.latW (s.enter .writeback)
  have hframe := (writebackStage_frame ht).fields
  exact ⟨t, ht, .inl ⟨(congrArg State.status hframe :).trans hrun, writebackStage_sound ht hs,
    writebackStage_finished ht, writebackStage_empties ht, (congrArg State.latM hframe :).trans hM,
    (congrArg State.latE hframe :).trans hE⟩⟩

theorem settles_memory {oE : Option Latch} (hW : s.latW = none) (hE : s.latE = oE) :
    Settles (fun t => t.latM = none ∧ t.latE = oE) s.finished (memoryStage s) := by
  obtain ⟨t, ht⟩ := runLatch_answers (st := .memory) hs.latM (s.enter .memory)
  refine ⟨t, ht, (memoryStage_finished ht hW).imp_left fun ⟨hst, hfin⟩ => ?_⟩
  have htrun := hst.trans hrun
  exact ⟨htrun, memoryStage_sound ht hs hW, hfin, (memoryStage_moves ht hW htrun).2,
    (congrArg State.latE (memoryStage_frame ht).fields :).trans hE⟩

theorem settles_execute {oW : Option Latch} (hM : s.latM = none) (hW : s.latW = oW) :
    Settles (fun t => t.latE = none ∧ t.latW = oW) s.finished (executeStage s) := by
  obtain ⟨t, ht⟩ := runLatch_answers (st := .execute) hs.latE (s.enter .execute)
  refine ⟨t, ht, (executeStage_finished ht hM).imp_left fun ⟨hst, hfin⟩ => ?_⟩
  have htrun := hst.trans hrun
  exact ⟨htrun, executeStage_sound ht hs hM, hfin, (executeStage_moves ht hM htrun).2,
    (congrArg State.latW (executeStage_frame ht).fields :).trans hW⟩

end

/-- The completion by the machine's own stages settles to `finished`, with nothing left in flight. -/
theorem settles_completeIssued {s : State} (hs : s.Sound) :
    Settles (fun t => t.latW = none ∧ t.latM = none ∧ t.latE = none) s.finished
      (completeIssued s) := by
  have hs0 : { s with status := .running }.Sound := hs.of_frame rfl
  have hW := settles_writeback rfl hs0 rfl rfl
  have hM := hW.andThen fun u hu hsu ⟨hempty, _, hE⟩ => settles_memory hu hsu hempty hE
  have hMW := hM.andThen fun u hu hsu ⟨hempty, hE⟩ => settles_writeback hu hsu hempty hE
  have hE := hMW.andThen fun u hu hsu ⟨hemptyW, hempty, _⟩ => settles_execute hu hsu hempty hemptyW
  have hEM := hE.andThen fun u hu hsu ⟨hempty, hW⟩ => settles_memory hu hsu hW hempty
  exact hEM.andThen fun u hu hsu ⟨hemptyM, hempty⟩ => settles_writeback hu hsu hemptyM hempty

theorem committed_eq_finished {s : State} (hs : s.Sound) : s.committed = s.finished := by
  obtain ⟨t, ht, ⟨hrun, _, hfin, hW, hM, hE⟩ | ⟨hstop, hnone⟩⟩ := settles_completeIssued hs
  · simp [State.committed, ht, hrun, ← hfin, finished_of_drained hE hM hW, State.pending]
  · simp [State.committed, ht, hstop, hnone]

/-! ### A value Decode resolves (R142, R151) -/

/-- Each tap names an instruction ahead and the value it will write there: the Execute tap the one in
`M`, the Memory tap the one in `W`. -/
structure TapsDeliver (u : State) : Prop where
  tapE : ∀ r v, u.tapE = some (r, v) → ∃ l i, u.latM = some l ∧ l.instr = some i ∧
    ∀ m regs, (retiredRegs i (loaded i l m) regs)[r] = v
  tapM : ∀ r v, u.tapM = some (r, v) → ∃ l i, u.latW = some l ∧ l.instr = some i ∧ r ∈ dests i ∧
    ∀ regs, (retiredRegs i l regs)[r] = v

theorem executeTap_delivers {i : Instr} {l : Latch} {r : Reg} {v : Word}
    (h : executeTap i l = some (r, v)) (m : Memory) (regs : Vector Word 16) :
    (retiredRegs i (loaded i (executed i l) m) regs)[r] = v := by
  cases i <;>
    simp_all [executeTap, aluResult, baseUpdate, Instr.rdOpt] <;>
    obtain ⟨rfl, rfl⟩ := h <;>
    simp [retiredRegs, loaded, isLoad, Instr.rdOpt, executed, aluResult, baseUpdate, Latch.res,
      Latch.nextBase]

theorem memoryTap_delivers {i : Instr} {l : Latch} {r : Reg} {v : Word} (hlegal : i.legal = true)
    (h : memoryTap i l = some (r, v)) :
    r ∈ dests i ∧ ∀ regs, (retiredRegs i l regs)[r] = v := by
  obtain ⟨rd, hrd, he⟩ := Option.map_eq_some_iff.mp h
  cases he
  cases i
  case ldi rd' rs1 imm =>
    have hr : rd' = r := Option.some.inj hrd
    have hne : rs1 ≠ r := Ne.symm (hr ▸ of_decide_eq_true hlegal)
    rw [hr]
    refine ⟨.head _, fun regs => ?_⟩
    rw [retiredRegs, getElem_set_reg, if_neg hne, getElem_set_reg, if_pos rfl]
  all_goals simp_all [Instr.rdOpt, dests, retiredRegs]

/-- Memory and Execute have just published what they handed on (R148 to R150). -/
theorem frontHalf_tapsDeliver {s u : State} (hinv : s.Inv) (hrun : s.status = .running)
    (h : frontHalf s = .next u) (hu : u.status = .running) : TapsDeliver u := by
  obtain ⟨m, hm, hmrun, hexecute⟩ := andThen_next_running h hu
  obtain ⟨w, hw, _, hmemory⟩ := throughMemory_next hrun hm
  have hwsound := writebackStage_sound hw (hinv.sound.of_frame rfl)
  constructor
  case tapE =>
    intro r v htap
    rcases executeStage_next hexecute with ⟨_, rfl⟩ | ⟨l, i, _, hi, ⟨f, _, rfl⟩ | ⟨_, rfl⟩⟩
    · cases htap
    · cases hu
    · exact ⟨executed i l, i, rfl, hi, executeTap_delivers htap⟩
  case tapM =>
    intro r v htap
    have hframe := (executeStage_frame hexecute).fields
    rw [show u.tapM = m.tapM from (congrArg State.tapM hframe :)] at htap
    rw [show u.latW = m.latW from (congrArg State.latW hframe :)]
    rcases memoryStage_next hmemory with ⟨_, rfl⟩ | ⟨l, i, hM, hi, ⟨_, rfl⟩ | ⟨_, rfl⟩⟩
    · cases htap
    · cases hmrun
    · obtain ⟨j, hj, hlegal, _⟩ := hwsound.latM l hM
      obtain rfl : i = j := Option.some.inj (hi.symm.trans hj)
      exact ⟨loaded i l w.mem, i, rfl, (loaded_instr i l w.mem).trans hi,
        memoryTap_delivers hlegal htap⟩

/-! #### The registers of `finished` -/

theorem retiredIn_of_not_mem {o : Option Latch} {r : Reg} (hr : r ∉ destsIn o)
    (regs : Vector Word 16) : (retiredIn o regs)[r] = regs[r] := by
  unfold retiredIn
  split
  · rfl
  split
  · rfl
  · rename_i i hi
    rw [destsIn_some hi] at hr
    exact retiredRegs_of_not_mem _ regs hr

section
variable {u : State} {a : Arch} (hE : u.latE = none) (ha : u.finished = some a)
include hE ha

theorem finished_of_latE_none : onOccupant (finishM u.params.dataMemWords) u.latM
    { u.pending with regs := retiredIn u.latW u.regs } = some a := by
  rw [← ha, State.finished, hE, onOccupant_none, Option.bind_fun_some]

/-- The instruction in `M` writes last, what it has loaded or computed. -/
theorem finished_regs {l : Latch} {i : Instr} (hM : u.latM = some l) (hi : l.instr = some i) :
    a.regs = retiredRegs i (loaded i l u.mem) (retiredIn u.latW u.regs) := by
  have h := finished_of_latE_none hE ha
  rw [hM, onOccupant_some hi, finishM] at h
  split at h <;> cases h
  rfl

theorem finished_reg_of_not_mem {r : Reg} (hr : r ∉ destsIn u.latM) :
    a.regs[r] = (retiredIn u.latW u.regs)[r] := by
  have h := finished_of_latE_none hE ha
  unfold onOccupant at h
  split at h
  · cases h; rfl
  rename_i l hM
  split at h
  · cases h; rfl
  · rename_i i hi
    rw [hM, destsIn_some hi] at hr
    rw [finished_regs hE ha hM hi]
    exact retiredRegs_of_not_mem _ _ hr

/-- What a register resolves to is what it holds once everything ahead has completed (R151): a tap's
value is written by the instruction it names and by none after it, and nothing in flight writes a
register that is not busy. -/
theorem resolve_final (hs : u.Sound) (htaps : TapsDeliver u) {r : Reg} {v : Word}
    (hr : resolve r u = some v) : a.regs[r] = v := by
  have hclaims := hs.claims
  have hclaimed : u.claimed = destsIn u.latM ++ destsIn u.latW := by simp [State.claimed, hE]
  rw [hclaimed] at hclaims
  rcases resolve_cases hr with htap | htap | ⟨hfree, rfl⟩
  · obtain ⟨l, i, hM, hi, hdeliver⟩ := htaps.tapE r v htap
    rw [finished_regs hE ha hM hi, hdeliver]
  · obtain ⟨l, i, hW, hi, hmem, hdeliver⟩ := htaps.tapM r v htap
    have hrW : r ∈ destsIn u.latW := by rw [hW, destsIn_some hi]; exact hmem
    have hrM : r ∉ destsIn u.latM := fun hrM => (List.nodup_append.mp hclaims).2.2 r hrM r hrW rfl
    rw [finished_reg_of_not_mem hE ha hrM, hW, retiredIn_some hi, hdeliver]
  · have hnot : r ∉ destsIn u.latM ++ destsIn u.latW := by
      rw [← hclaimed, ← hs.busy r, hfree]
      exact Bool.false_ne_true
    rw [List.mem_append, not_or] at hnot
    rw [finished_reg_of_not_mem hE ha hnot.1, retiredIn_of_not_mem hnot.2]
    rfl

end

/-- Settles O54: `resolve_final` at the Decode evaluation, with `finished` for the completion. -/
theorem resolvedValueIsFinal : Obligations.ResolvedValueIsFinal := by
  unfold Obligations.ResolvedValueIsFinal
  intro s u t r v hinv hrun hu hurun hr ht htrun
  obtain ⟨hsound, _, hE⟩ := frontHalf_sound hinv hrun hu
  have ha : u.finished = some { t.arch with pc := t.nextIssue } := by
    rw [← committed_eq_finished hsound, State.committed, ht]
    exact if_pos htrun
  exact resolve_final (hE hurun) ha hsound (frontHalf_tapsDeliver hinv hrun hu hurun) hr

end Sys2Proof.Machine

namespace Sys2Proof.Machine

/-! ### One instruction and its architectural effect (R290) -/

/-- A latch as Decode leaves it: the operands are what the registers of `a` hold. -/
structure ReadyFor (i : Instr) (l : Latch) (a : Arch) : Prop where
  pc : l.pc = a.pc
  rs1Val : l.rs1Val = i.rs1Opt.map a.reg
  rs2Val : l.rs2Val = i.rs2Opt.map a.reg

theorem ReadyFor.rs1v {i : Instr} {l : Latch} {a : Arch} (h : ReadyFor i l a) {r : Reg}
    (hr : i.rs1Opt = some r) : l.rs1v = a.reg r :=
  Latch.rs1v_of_some (by rw [h.rs1Val, hr]; rfl)

theorem ReadyFor.rs2v {i : Instr} {l : Latch} {a : Arch} (h : ReadyFor i l a) {r : Reg}
    (hr : i.rs2Opt = some r) : l.rs2v = a.reg r :=
  Latch.rs2v_of_some (by rw [h.rs2Val, hr]; rfl)

theorem finishE_div (size : Nat) (rd rs1 rs2 : Reg) (l : Latch) (a : Arch) :
    finishE size (.div rd rs1 rs2) l a =
      if l.rs2v = 0 then .inr (.divideByZero l.pc)
      else if l.rs1v = minWord ∧ l.rs2v = minusOne then .inr (.divideOverflow l.pc)
      else finishM size (.div rd rs1 rs2) (executed (.div rd rs1 rs2) l) { a with
        zFlag := zAfter (.div rd rs1 rs2) l a.zFlag, pFlag := pAfter (.div rd rs1 rs2) l a.pFlag } := by
  simp only [finishE, divideFault]
  by_cases h0 : l.rs2v = 0
  · rw [if_pos h0, if_pos h0]
  rw [if_neg h0, if_neg h0]
  by_cases hov : l.rs1v = minWord ∧ l.rs2v = minusOne
  · rw [if_pos hov, if_pos hov]
  · rw [if_neg hov, if_neg hov]
    rfl

theorem finishM_of_access (size : Nat) {i : Instr} (hi : accessesMemory i = true) (l : Latch)
    (a : Arch) : finishM size i l a =
      if inRange size l.addr then .inl (finishW i (loaded i l a.mem) { a with mem := stored i l a.mem })
      else .inr (.memoryOutOfBounds l.pc l.addr) := by
  unfold finishM accessFaults
  rw [hi]
  cases inRange size l.addr <;> rfl

/-- Completing an instruction with its operands resolved is its architectural effect: kind by kind,
the stages compute what the rule says of the registers the operands came from. -/
theorem finishE_eq_exec (size : Nat) {i : Instr} {l : Latch} {a : Arch} (h : ReadyFor i l a) :
    finishE size i l { a with pc := nextPc a.pc } = Arch.exec size i a := by
  have h1 := fun r => h.rs1v (r := r)
  have h2 := fun r => h.rs2v (r := r)
  obtain ⟨pc, instr, rs1Val, rs2Val, result, memAddr, bypass⟩ := l
  obtain rfl : pc = a.pc := h.pc
  cases i
  case div => rw [finishE_div, Arch.exec, ← h1 _ rfl, ← h2 _ rfl]; rfl
  case load rd rs1 imm | ldi rd rs1 imm =>
    rw [Arch.exec, ← h1 rs1 rfl]
    exact finishM_of_access size (by rfl) _ _
  case store rs1 rs2 imm | sti rs1 rs2 imm =>
    rw [Arch.exec, ← h1 rs1 rfl, ← h2 rs2 rfl]
    exact finishM_of_access size (by rfl) _ _
  case bz | bnz | bp | bnp =>
    obtain ⟨regs, z, p, mem, pc⟩ := a
    cases z <;> cases p <;> rfl
  case add | sub | mul | and | or | xor | cmp => rw [Arch.exec, ← h1 _ rfl, ← h2 _ rfl]; rfl
  case addl | subl | jump => rw [Arch.exec, ← h1 _ rfl]; rfl
  case loadconst | halt | nop => rfl

/-! ### Issuing an instruction (R147, R290) -/

/-- Memory and Writeback do not look at the pc. -/
theorem finishM_with_pc (size : Nat) (o : Option Latch) (a : Arch) (pc : Word) :
    onOccupant (finishM size) o { a with pc := pc } =
      (onOccupant (finishM size) o a).map fun b => { b with pc := pc } := by
  unfold onOccupant
  split
  · rfl
  split
  · rfl
  · unfold finishM
    split <;> rfl

theorem finishM_pc {size : Nat} {o : Option Latch} {a b : Arch}
    (h : onOccupant (finishM size) o a = some b) : b.pc = a.pc := by
  have hself := finishM_with_pc size o a a.pc
  rw [h] at hself
  simpa using congrArg (Option.map Arch.pc) hself

section
variable {e : State} {l : Latch} {i : Instr} {v1 v2 : Option Word} {a : Arch}

theorem resolveOpt_final (hE : e.latE = none) (ha : e.finished = some a) (hs : e.Sound)
    (htaps : TapsDeliver e) {r : Option Reg} {v : Option Word}
    (h : resolveOpt r (e.enter .decode) = some v) : v = r.map a.reg := by
  cases r with
  | none => cases h; rfl
  | some r =>
    obtain ⟨w, hw, rfl⟩ := Option.map_eq_some_iff.mp h
    have hw' : resolve r e = some w := hw
    rw [← resolve_final hE ha hs htaps hw']
    rfl

/-- Issuing an instruction adds its architectural effect to what everything ahead completes to. -/
theorem finished_of_issue (hs : e.Sound) (htaps : TapsDeliver e) (hE : e.latE = none)
    (ha : e.finished = some a) (hD : e.latD = some l) (hi : l.instr = some i)
    (h1 : resolveOpt i.rs1Opt (e.enter .decode) = some v1)
    (h2 : resolveOpt i.rs2Opt (e.enter .decode) = some v2) :
    e.imageAt a.pc = some i ∧
      (toExecute v1 v2 l (markAll (dests i) (e.enter .decode))).finished =
        (Arch.exec e.params.dataMemWords i a).getLeft? := by
  obtain ⟨himg, hpc⟩ := hs.latD l hD
  have hahead := finished_of_latE_none hE ha
  have hapc : a.pc = l.pc := by
    rw [finishM_pc hahead, ← nextIssue_of_some hD]
    rfl
  have hready : ReadyFor i { l with rs1Val := v1, rs2Val := v2 } a :=
    ⟨hapc.symm, resolveOpt_final hE ha hs htaps h1, resolveOpt_final hE ha hs htaps h2⟩
  refine ⟨by rw [hapc, ← himg, hi], ?_⟩
  obtain ⟨b, hb⟩ := markAll_eq (dests i) (e.enter .decode)
  have hissued : onOccupant (finishM e.params.dataMemWords) e.latM
      { e.pending with regs := retiredIn e.latW e.regs, pc := nextPc a.pc } =
        some { a with pc := nextPc a.pc } := by
    have h := finishM_with_pc e.params.dataMemWords e.latM
      { e.pending with regs := retiredIn e.latW e.regs } (nextPc a.pc)
    rwa [hahead] at h
  have hnext : e.pc = nextPc a.pc := by rw [hpc, hapc]
  rw [← hnext] at hissued
  rw [hb, ← finishE_eq_exec _ hready, ← hnext]
  calc (toExecute v1 v2 l { e.enter .decode with busy := b }).finished
    _ = (some { a with pc := e.pc }).bind (onOccupant (finishE e.params.dataMemWords)
          (some { l with rs1Val := v1, rs2Val := v2 })) :=
        congrArg (Option.bind · _) hissued
    _ = onOccupant (finishE e.params.dataMemWords) (some { l with rs1Val := v1, rs2Val := v2 })
          { a with pc := e.pc } := Option.bind_some ..
    _ = _ := onOccupant_some (l := { l with rs1Val := v1, rs2Val := v2 }) hi _

end

section
variable {s w m e d f t : State} (hc : Completes s w m e d f t)
include hc

/-- Writeback, Memory and Execute of a tick that completes keep what everything issued completes
to. -/
theorem Completes.execute_finished : e.finished = s.finished := by
  have hw := writebackStage_finished hc.writeback
  have hm := (memoryStage_finished hc.memory (writebackStage_empties hc.writeback)).resolve_right
    fun hstop => hstop.1 hc.runningM
  have hM := (memoryStage_moves hc.memory (writebackStage_empties hc.writeback) hc.runningM).2
  have he := (executeStage_finished hc.execute hM).resolve_right fun hstop => hstop.1 hc.runningE
  rw [he.2, hm.2, hw]
  exact finished_of_frame rfl

theorem Completes.frontHalf (hrun : s.status = .running) : frontHalf s = .next e := by
  have hwrun : w.status = .running :=
    (congrArg State.status (writebackStage_frame hc.writeback).fields :).trans hrun
  rw [Machine.frontHalf, hc.writeback, andThen_of_running hwrun, hc.memory,
    andThen_of_running hc.runningM, hc.execute]

end

/-- Settles O56: every stage but Decode keeps what everything issued completes to, and Decode keeps it
or issues the instruction at its address on the operands it will find. -/
theorem pipelineRefinesSequentialExecution : Obligations.PipelineRefinesSequentialExecution := by
  unfold Obligations.PipelineRefinesSequentialExecution
  intro s t a hinv h hsafe ha
  have hrun := (step_next h).1
  obtain ⟨w, m, e, d, f, hc⟩ := step_completes h hsafe
  obtain ⟨hsound, hE⟩ := hc.sound_execute hinv
  have hfixed : e.fixedFields = s.fixedFields := by
    rw [executeStage_keeps_fixedFields hc.execute, memoryStage_keeps_fixedFields hc.memory,
      writebackStage_keeps_fixedFields hc.writeback]
    rfl
  have hparams : e.params = s.params := congrArg Prod.fst hfixed
  have himage : e.image = s.image := congrArg (·.2.1) hfixed
  have hefin : e.finished = some a := by
    rw [hc.execute_finished, ← committed_eq_finished hinv.sound, ha]
  have htfin : t.committed = d.finished := by
    rw [committed_eq_finished (step_inv hinv h).sound, ← fetchStage_finished hc.fetch, hc.end_eq]
    exact finished_of_frame rfl
  have htaps := frontHalf_tapsDeliver hinv hrun (hc.frontHalf hrun) hc.runningE
  rw [htfin]
  rcases hsound.decodeStage_next hc.decode with rfl | ⟨l, _, rfl⟩ |
    ⟨l, i, v1, v2, hD, hi, h1, h2, _, rfl⟩
  · exact .inl ((finished_enter e _).trans hefin)
  · cases hc.runningD
  · obtain ⟨himg, hfin⟩ := finished_of_issue hsound htaps hE hefin hD hi h1 h2
    refine .inr ⟨i, by rw [← imageAt_congr himage hparams]; exact himg, ?_⟩
    rw [hfin, hparams]
    cases Arch.exec s.params.dataMemWords i a <;> rfl

end Sys2Proof.Machine

namespace Sys2Proof.Machine

/-! ### One instruction alone in the pipeline (R290)

Fetch and Decode find nothing to wait for and put the operands into the latch; Execute, Memory and
Writeback then do what `finishE` does. -/

/-- An idle machine that has fetched `i`. -/
def fetchedAlone (i : Instr) (haltFetched : Bool) (s : State) : State :=
  { s with
    pc := nextPc s.pc
    latF := some { pc := s.pc, instr := some i }
    latD := some { pc := s.pc, instr := some i }
    haltFetched := haltFetched
    stage := .fetch }

/-- The latch of `i`, fetched at the pc of `s`, with its operands read from the registers of `s`. -/
def operandLatch (i : Instr) (s : State) : Latch :=
  { pc := s.pc, instr := some i, rs1Val := i.rs1Opt.map s.reg, rs2Val := i.rs2Opt.map s.reg }

theorem operandLatch_ready (i : Instr) (s : State) : ReadyFor i (operandLatch i s) s.arch :=
  ⟨rfl, rfl, rfl⟩

/-- An idle machine that has fetched and issued `i`. -/
def issuedAlone (i : Instr) (haltFetched : Bool) (busy : Vector Bool 16) (s : State) : State :=
  { s with
    pc := nextPc s.pc
    busy := busy
    latF := some { pc := s.pc, instr := some i }
    latD := none
    latE := some (operandLatch i s)
    haltFetched := haltFetched
    stage := .decode }

theorem exec_fetch_alone (i : Instr) (s : State) :
    ∃ b, exec i (s.enter .fetch) = .next (fetchedAlone i b s) := by
  rw [exec_fetch i _ (s.enter_stage .fetch)]
  split
  · exact ⟨true, rfl⟩
  · exact ⟨s.haltFetched, rfl⟩

section
variable {i : Instr} {s : State} (hs : s.Idle) (hi : i.legal = true)
include hs

/-- With no tap and no register busy, a source is what its register holds. -/
theorem resolveOpt_alone (b : Bool) (o : Option Reg) :
    resolveOpt o ((fetchedAlone i b s).enter .decode) = some (o.map s.reg) := by
  cases o with
  | none => rfl
  | some r =>
    have hr : resolve r s = some (s.reg r) := by
      rw [resolve_of_no_tap (by simp [hs.tapE]) (by simp [hs.tapM]), hs.busy r]
      rfl
    exact congrArg (Option.map some) hr

include hi

theorem exec_decode_alone (b : Bool) : ∃ busy, (∀ r : Reg, busy[r] = (dests i).contains r) ∧
    exec i ((fetchedAlone i b s).enter .decode) = .next (issuedAlone i b busy s) := by
  have hbusy : ∀ r, ((fetchedAlone i b s).enter .decode).isBusy r = false := hs.busy
  have hfree : (dests i).any ((fetchedAlone i b s).enter .decode).isBusy = false :=
    List.any_eq_false.mpr fun r _ => by rw [hbusy r]; exact Bool.false_ne_true
  have hissue := issue_of_resolved { pc := s.pc, instr := some i } (resolveOpt_alone hs b i.rs1Opt)
    (resolveOpt_alone hs b i.rs2Opt) (dests_nodup hi) hfree
  obtain ⟨busy, hmark⟩ := markAll_eq (dests i) ((fetchedAlone i b s).enter .decode)
  refine ⟨busy, fun r => ?_, ?_⟩
  · have hmarked := markAll_isBusy (dests i) ((fetchedAlone i b s).enter .decode) r
    rw [hbusy r, Bool.or_false, hmark] at hmarked
    exact hmarked
  · rw [exec_decode i _ (State.enter_stage _ .decode)]
    rw [hmark] at hissue
    exact hissue

theorem issues_alone : ∃ b busy, (∀ r : Reg, busy[r] = (dests i).contains r) ∧
    andThen (exec i (s.enter .fetch)) (fun s => exec i (s.enter .decode)) =
      .next (issuedAlone i b busy s) := by
  obtain ⟨b, hfetch⟩ := exec_fetch_alone i s
  obtain ⟨busy, hbusy, hdecode⟩ := exec_decode_alone hs hi b
  have hrun : (fetchedAlone i b s).status = .running := hs.running
  exact ⟨b, busy, hbusy, by rw [hfetch, andThen_of_running hrun, hdecode]⟩

end

/-! #### From Execute on -/

/-- What the claim asks of the state after the five actions, for an outcome of `Arch.exec`. -/
def Effected (i : Instr) (s : State) (outcome : Arch ⊕ Fatal) (t : State) : Prop :=
  match outcome with
  | .inl a => t.arch = a ∧ t.status = .running ∧ t.retired = s.retired + 1 ∧
      (∀ r, t.isBusy r = false) ∧
      t.latD = none ∧ t.latE = none ∧ t.latM = none ∧ t.latW = none ∧
      t.haltedNow = (s.haltedNow || decide (i = .halt))
  | .inr f => t.status = .faulted f ∧ t.regs = s.regs ∧ t.zFlag = s.zFlag ∧
      t.pFlag = s.pFlag ∧ t.mem = s.mem

/-- The kinds that can raise in Memory set no flag in Execute. -/
theorem flags_of_accessFaults {i : Instr} {l : Latch} {size : Nat}
    (h : accessFaults i l size = true) (l' : Latch) (z p : Bool) :
    zAfter i l' z = z ∧ pAfter i l' p = p := by
  have hacc : accessesMemory i = true := (Bool.and_eq_true_iff.mp h).1
  cases i <;> simp_all [accessesMemory, zAfter, pAfter, setsFlags]

/-- The state after Execute of `i` with the latch `l`. -/
def executedAlone (i : Instr) (l : Latch) (u : State) : State := afterExecute i l (u.enter .execute)

/-- The state after Execute and Memory. -/
def accessedAlone (i : Instr) (l : Latch) (u : State) : State :=
  afterAccess i (executed i l) ((executedAlone i l u).enter .memory)

/-- The state after Execute, Memory and Writeback. -/
def retiredAlone (i : Instr) (l : Latch) (u : State) : State :=
  afterWriteback i (loaded i (executed i l) (executedAlone i l u).mem)
    ((accessedAlone i l u).enter .writeback)

section
variable {i : Instr} {l : Latch} {u : State}

@[simp] theorem executedAlone_status : (executedAlone i l u).status = u.status := by
  simp [executedAlone, afterExecute]

theorem exec_execute_alone (hE : u.latE = some l) : exec i (u.enter .execute) =
    (divideFault i l).elim (.next (executedAlone i l u)) (raise · (u.enter .execute)) := by
  have hE' : (u.enter .execute).latE = some l := hE
  exact exec_execute_eq rfl hE'

theorem exec_memory_alone : exec i ((executedAlone i l u).enter .memory) =
    if accessFaults i (executed i l) u.params.dataMemWords
    then raise (.memoryOutOfBounds l.pc (executed i l).addr) ((executedAlone i l u).enter .memory)
    else .next (accessedAlone i l u) := by
  have hparams : ((executedAlone i l u).enter .memory).params = u.params := by
    simp [executedAlone, afterExecute]
  rw [← hparams]
  exact exec_memory_eq (l := executed i l) rfl rfl

theorem exec_writeback_alone :
    exec i ((accessedAlone i l u).enter .writeback) = .next (retiredAlone i l u) :=
  exec_writeback_eq (l := loaded i (executed i l) (executedAlone i l u).mem) rfl rfl

theorem retiredAlone_arch : (retiredAlone i l u).arch =
    finishW i (loaded i (executed i l) u.mem) { u.arch with
      mem := stored i (executed i l) u.mem
      zFlag := zAfter i l u.zFlag
      pFlag := pAfter i l u.pFlag
      pc := (transfer i l u.zFlag u.pFlag).getD u.pc } := by
  simp [retiredAlone, accessedAlone, executedAlone, afterWriteback, afterAccess, afterExecute,
    State.arch, finishW]

theorem retiredAlone_busy : (retiredAlone i l u).busy = freed (dests i) u.busy := by
  simp [retiredAlone, accessedAlone, executedAlone, afterWriteback, afterAccess, afterExecute]

section
variable (hrun : u.status = .running) (hD : u.latD = none)
  (hbusy : ∀ r : Reg, u.busy[r] = (dests i).contains r)
include hrun hD hbusy

/-- Nothing is left in flight, and Writeback has freed every register that was busy. -/
theorem retiredAlone_effected :
    Effected i u (.inl (retiredAlone i l u).arch) (retiredAlone i l u) := by
  refine ⟨rfl, ?status, ?retired, ?free, ?latD, rfl, rfl, rfl, ?halted⟩
  case free =>
    intro r
    rw [State.isBusy, retiredAlone_busy, freed_getElem, hbusy, Bool.and_not_self]
  all_goals
    simp [retiredAlone, accessedAlone, executedAlone, afterWriteback, afterAccess, afterExecute,
      hrun, hD]

/-- Execute or Memory raises and ends the sequence, or Writeback completes it. -/
theorem completes_alone (hE : u.latE = some l) :
    ∃ t, andThen (andThen (exec i (u.enter .execute)) fun s => exec i (s.enter .memory))
        (fun s => exec i (s.enter .writeback)) = .next t ∧
      Effected i u (finishE u.params.dataMemWords i l u.arch) t := by
  rw [exec_execute_alone hE, finishE]
  cases hdiv : divideFault i l with
  | some f => exact ⟨_, rfl, rfl, rfl, rfl, rfl, rfl⟩
  | none =>
    have herun : (executedAlone i l u).status = .running := by simp [hrun]
    rw [Option.elim_none, andThen_of_running herun, exec_memory_alone]
    simp only [finishM]
    split <;> rename_i hacc
    · obtain ⟨hz, hp⟩ := flags_of_accessFaults hacc l u.zFlag u.pFlag
      refine ⟨_, rfl, rfl, ?_⟩
      simp [executedAlone, afterExecute, hz, hp]
    · have hmrun : (accessedAlone i l u).status = .running := herun
      have heffect := retiredAlone_effected (l := l) hrun hD hbusy
      rw [retiredAlone_arch] at heffect
      exact ⟨_, by rw [andThen_of_running hmrun, exec_writeback_alone], heffect⟩

end

end

/-- Settles O55: Fetch and Decode issue the instruction, and the stages after them complete it to
`finishE`, which is its architectural effect. -/
theorem aloneInstructionHasItsEffect : Obligations.AloneInstructionHasItsEffect := by
  unfold Obligations.AloneInstructionHasItsEffect
  intro i s hs hi
  obtain ⟨b, busy, hbusy, hissue⟩ := issues_alone hs hi
  have hrun : (issuedAlone i b busy s).status = .running := hs.running
  rw [passAlone, hissue, andThen_of_running hrun, ← finishE_eq_exec _ (operandLatch_ready i s)]
  exact completes_alone (u := issuedAlone i b busy s) hrun rfl hbusy rfl

end Sys2Proof.Machine
